-- ==== Sys2Proof/Word.lean ====
section
/-! DEFINITION. The bit vectors the spec names: packet values, keys, channels, nibbles, durations, bytes. -/

namespace Sys2Proof

/-- One byte of a command payload (30_encoding.md R69) or of the queue memory (20_memory.md R40). -/
abbrev Byte := BitVec 8

/-- A 4-bit group of a packet value (00_scope.md R6). -/
abbrev Nibble := BitVec 4

/-- The 4-bit key mask (30_encoding.md R61); 0 means no key. -/
abbrev Key := BitVec 4

/-- The 3-bit channel, 0-based (10_state.md R16). -/
abbrev Channel := BitVec 3

/-- A packet value in natural bit order (30_encoding.md R60). -/
abbrev Packet := BitVec 16

/-- A duration in time units, `DUR_W` = 16 bits unsigned (30_encoding.md R65, D2). -/
abbrev Dur := BitVec 16

end Sys2Proof
end

