-- ==== Sys2Proof/Config.lean ====
section
/-! DEFINITION. What an implementation fixes: the queue capacity, and the OPEN parameters of 00_scope.md R5, each a named
argument of the model ("OPEN means the model takes a named parameter as an argument", 92_eei_decisions.md). An OPEN parameter
has no body, so a claim holds for every value of it (log 22, 23). The numeric literals of the symbol alphabet and of the receive
windows stand in Machine/Operands.lean. -/

namespace Sys2Proof.Config

/-- `Q_CAP`, the capacity of the Command Queue in packets (00_scope.md R4). -/
def queueCapacity : Nat := 128

/-- `CHANNEL_DEFAULT`, the configured channel after reset: an OPEN 3-bit parameter (00_scope.md R5, 10_state.md R16, D25)
(log 22). -/
opaque channelDefault : Channel

/-- `TIME_UNIT`, the length of the time unit in which every duration counts: OPEN (00_scope.md R5, D1,
93_implementation_defined.md S8). "No rule depends on it" (log 23). -/
opaque timeUnit : Nat

/-- `TX_TIMEOUT`, the bound of the transmit timer in time units: OPEN (00_scope.md R5, 60_exceptions.md R240, D24,
93_implementation_defined.md S10). A sensible value exceeds the longest batch, 5458176. The untimed
model ends a transmission with `timeout` instead of counting (log 23, 27). -/
opaque txTimeout : Nat

/-- `PAYLOAD_MAX`, the longest payload of an inbound command in bytes: OPEN, any natural number (00_scope.md R5, 30_encoding.md
R69, 43_commands.md R162, D12) (log 23). -/
opaque payloadMax : Nat

/-- `CAPTURE_MAX`, the longest captured sequence in symbols: OPEN, any natural number (00_scope.md R5, D33) (log 23). -/
opaque captureMax : Nat

end Sys2Proof.Config
end

