-- ==== Sys2Proof/Syntax.lean ====
section
/-! DEFINITION. The syntax: symbols, tokens, requests and events of the environment, and one constructor of `Instr` for each
row of spec/opcode_table.json. -/

namespace Sys2Proof

/-- A symbol `(mark, space)` (00_scope.md R8, 30_encoding.md R65). -/
structure Symbol where
  mark : Dur
  space : Dur
  deriving DecidableEq, Repr

/-- A transmission result, and the outcome token of the same name (30_encoding.md R70, 44_arbiter.md R194, R198). -/
inductive Token where
  | done
  | invalidArg
  | timeout
  | fail
  | unknownError
  deriving DecidableEq, Repr

/-- A diagnostic event with the value it carries (30_encoding.md R71). -/
inductive Diag where
  | flushEmpty
  | appendOverflow (dropped : Nat)
  | invalidFrame (v : Packet)
  deriving DecidableEq, Repr

/-- The two rules of an arbiter sub-step ARB_HELD, ARB_STOP or ARB_FLUSH: its begin (44_arbiter.md R184, R186, R190) and its
completion with the drawn result (R185, R187, R191). -/
inductive StepPart where
  | start
  | complete (r : Token)
  deriving DecidableEq, Repr

/-- The three parts of TRANSMIT (44_arbiter.md R194). -/
inductive TransmitPart where
  | start
  | drive (cap : Nat)
  | finish (r : Token)
  deriving DecidableEq, Repr

/-- An inbound command the port can accept (43_commands.md R160 to R169). FLUSH carries nothing, because "a payload, if
present, is ignored" (R165); HELDKEY and SETCHAN carry their one byte. -/
inductive Command where
  | append (payload : List Byte)
  | flush
  | heldKey (b : Byte)
  | setChan (b : Byte)
  deriving DecidableEq, Repr

/-- The operations, in the order of spec/opcode_table.json. -/
inductive Instr where
  -- PKT: a packet word; channel is bits 14:12, checksum bits 3:0 (30_encoding.md R60, R61)
  | pktStop (channel : Channel) (checksum : Nibble)
  | pktLb (channel : Channel) (checksum : Nibble)
  | pktLf (channel : Channel) (checksum : Nibble)
  | pktLbLf (channel : Channel) (checksum : Nibble)
  | pktRf (channel : Channel) (checksum : Nibble)
  | pktLbRf (channel : Channel) (checksum : Nibble)
  | pktLfRf (channel : Channel) (checksum : Nibble)
  | pktLbLfRf (channel : Channel) (checksum : Nibble)
  | pktRb (channel : Channel) (checksum : Nibble)
  | pktLbRb (channel : Channel) (checksum : Nibble)
  | pktLfRb (channel : Channel) (checksum : Nibble)
  | pktLbLfRb (channel : Channel) (checksum : Nibble)
  | pktRfRb (channel : Channel) (checksum : Nibble)
  | pktLbRfRb (channel : Channel) (checksum : Nibble)
  | pktLfRfRb (channel : Channel) (checksum : Nibble)
  | pktLbLfRfRb (channel : Channel) (checksum : Nibble)
  -- SYM: the transmit alphabet (30_encoding.md R66)
  | symStart
  | symBit0
  | symBit1
  | symEnd
  -- CMD: the inbound commands with their payload bytes (30_encoding.md R69)
  | append (payload : List Byte)
  | flush (payload : List Byte)
  | heldKey (payload : List Byte)
  | setChan (payload : List Byte)
  -- OUT: the transmission result of that name (30_encoding.md R70, R75 TXRESULT)
  | outDone
  | outInvalidArg
  | outTimeout
  | outFail
  | outUnknownError
  -- DIAG: the diagnostic events with their carried value (30_encoding.md R71)
  | diagFlushEmpty
  | diagAppendOverflow (dropped : Nat)
  | diagInvalidFrame (v : Packet)
  -- WAKE: the wake causes (30_encoding.md R72, 44_arbiter.md R188)
  | wakeContinue
  | wakeFlush
  -- ARBSTATE: the step that this value of arb_state enables (30_encoding.md R73, 44_arbiter.md R181)
  | arbStateCycle
  | arbStateTxHeld (r : Token)
  | arbStateTxStop (r : Token)
  | arbStateWait
  | arbStateTxFlush (r : Token)
  -- ENCPHASE: the beat of DRIVE in that phase (30_encoding.md R73, 41_pulse_encoder.md R117)
  | encPhaseStart
  | encPhaseWord
  | encPhaseEnd
  -- BATCHSRC: the read of the current packet from that source (10_state.md R22)
  | batchSrcBuf
  | batchSrcQueue
  -- CALL: the operations that no bit pattern selects (00_scope.md R9)
  | checksum (v : Packet)
  | singleKey (k : Key)
  | encode (k : Key) (c : Channel)
  | validate (p : Packet)
  | wireBit (p : Packet) (i : BitVec 4)
  | frameSeq (batch : List Packet)
  | encReset
  | drive (cap : Nat)
  | waveform (syms : List Symbol)
  | isStart (sym : Symbol)
  | classify (sym : Symbol)
  | decode (capture : List Symbol)
  | arbHeld (part : StepPart)
  | arbStop (part : StepPart)
  | arbFlush (part : StepPart)
  | arbCycle
  | arbWait
  | transmit (part : TransmitPart)
  deriving DecidableEq, Repr

/-- The operation an interface of its own invokes: the CALL rows, "no bit pattern selects this operation". -/
inductive CallOp where
  | checksum
  | singleKey
  | encode
  | validate
  | wireBit
  | frameSeq
  | encReset
  | drive
  | waveform
  | isStart
  | classify
  | decode
  | arbHeld
  | arbStop
  | arbFlush
  | arbCycle
  | arbWait
  | transmit
  deriving DecidableEq, Repr

/-- Where a request arrives. The interface selects the format its bytes are read in: "A decoder is written from the rows of
one format" (30_encoding.md). -/
inductive Iface where
  | pkt
  | sym
  | cmd
  | out
  | diag
  | wake
  | arbState
  | encPhase
  | batchSrc
  | call (op : CallOp)
  deriving DecidableEq, Repr

/-- One operation as an agent presents it: an interface and the bytes on it (log 1, 10). -/
structure Request where
  iface : Iface
  bytes : List Byte
  deriving DecidableEq, Repr

/-- What the environment does next: it presents an operation, or lets the oldest waiting command of the port be accepted
(43_commands.md R160; 20_memory.md R53 leaves the order to the environment) (log 1, 13). -/
inductive Event where
  | request (r : Request)
  | accept
  deriving DecidableEq, Repr

end Sys2Proof
end

