-- ==== Sys2Proof/WellFormed.lean ====
section
/-! DEFINITION. Which terms of `Instr` are operations of the spec. -/

namespace Sys2Proof

/-- `0 <= len <= PAYLOAD_MAX` (30_encoding.md R69), with the OPEN parameter `PAYLOAD_MAX` (log 23). -/
def payloadFits (payload : List Byte) : Bool := decide (payload.length ≤ Config.payloadMax)

/-- A command's payload has at most PAYLOAD_MAX bytes (30_encoding.md R69), HELDKEY and SETCHAN take exactly one (43_commands.md
R167, R169), a capture has at most CAPTURE_MAX symbols (00_scope.md R5), a batch is not empty (00_scope.md R8, D8), and an
APPEND_OVERFLOW carries at least 1 (43_commands.md R162). Every other operand value is legal. -/
def Instr.wellFormed : Instr → Bool
  | .pktStop _ _ => true
  | .pktLb _ _ => true
  | .pktLf _ _ => true
  | .pktLbLf _ _ => true
  | .pktRf _ _ => true
  | .pktLbRf _ _ => true
  | .pktLfRf _ _ => true
  | .pktLbLfRf _ _ => true
  | .pktRb _ _ => true
  | .pktLbRb _ _ => true
  | .pktLfRb _ _ => true
  | .pktLbLfRb _ _ => true
  | .pktRfRb _ _ => true
  | .pktLbRfRb _ _ => true
  | .pktLfRfRb _ _ => true
  | .pktLbLfRfRb _ _ => true
  | .symStart => true
  | .symBit0 => true
  | .symBit1 => true
  | .symEnd => true
  | .append payload => payloadFits payload
  | .flush payload => payloadFits payload
  | .heldKey payload => payload.length == 1 && payloadFits payload
  | .setChan payload => payload.length == 1 && payloadFits payload
  | .outDone => true
  | .outInvalidArg => true
  | .outTimeout => true
  | .outFail => true
  | .outUnknownError => true
  | .diagFlushEmpty => true
  | .diagAppendOverflow dropped => decide (1 ≤ dropped)
  | .diagInvalidFrame _ => true
  | .wakeContinue => true
  | .wakeFlush => true
  | .arbStateCycle => true
  | .arbStateTxHeld _ => true
  | .arbStateTxStop _ => true
  | .arbStateWait => true
  | .arbStateTxFlush _ => true
  | .encPhaseStart => true
  | .encPhaseWord => true
  | .encPhaseEnd => true
  | .batchSrcBuf => true
  | .batchSrcQueue => true
  | .checksum _ => true
  | .singleKey _ => true
  | .encode _ _ => true
  | .validate _ => true
  | .wireBit _ _ => true
  | .frameSeq batch => !batch.isEmpty
  | .encReset => true
  | .drive _ => true
  | .waveform _ => true
  | .isStart _ => true
  | .classify _ => true
  | .decode capture => decide (capture.length ≤ Config.captureMax)
  | .arbHeld _ => true
  | .arbStop _ => true
  | .arbFlush _ => true
  | .arbCycle => true
  | .arbWait => true
  | .transmit _ => true

end Sys2Proof
end

