-- ==== Sys2Proof/Decode.lean ====
section
/-! DEFINITION. The decoder from a request (an interface and its bytes) to an operation, total on any bytes; the encoder; and
the reading of a word of spec/opcode_table.json. Multi-byte values are laid out low byte first. Formats are decoded
separately (30_encoding.md, "A decoder is written from the rows of one format"); operands that the table gives no bits follow
the coded byte (log 10). -/

namespace Sys2Proof

/-! ### Bytes and operand values -/

/-- Two bytes as a 16-bit value, the byte that arrives first in bits 7:0 (20_memory.md R44). -/
def le16 (lo hi : Byte) : BitVec 16 := hi ++ lo

/-- The low byte of a 16-bit value. -/
def lowByte (v : BitVec 16) : Byte := v.extractLsb' 0 8

/-- The high byte of a 16-bit value. -/
def highByte (v : BitVec 16) : Byte := v.extractLsb' 8 8

/-- A 16-bit value as two bytes, low byte first. -/
def bytesOf16 (v : BitVec 16) : List Byte := [lowByte v, highByte v]

/-- A byte as an `n`-bit operand; refused when a bit above the operand is set. -/
def narrowByte (n : Nat) (b : Byte) : Option (BitVec n) :=
  if b.toNat < 2 ^ n then some (BitVec.ofNat n b.toNat) else none

/-- A natural number from its base-256 digits, least significant first. -/
def natOfBytes : List Byte → Nat
  | [] => 0
  | b :: rest => b.toNat + 256 * natOfBytes rest

/-- At most `fuel` base-256 digits of `n`, least significant first, stopping at 0. -/
def digitBytes : Nat → Nat → List Byte
  | 0, _ => []
  | fuel + 1, n => if n = 0 then [] else BitVec.ofNat 8 n :: digitBytes fuel (n / 256)

/-- The base-256 digits of `n`; 0 is the empty list. -/
def bytesOfNat (n : Nat) : List Byte := digitBytes n n

/-- Packet values laid out one after another, two bytes each. -/
def packetsOfBytes : List Byte → Option (List Packet)
  | [] => some []
  | [_] => none
  | lo :: hi :: rest => (packetsOfBytes rest).map (le16 lo hi :: ·)

/-- The bytes of a list of packet values. -/
def bytesOfPackets : List Packet → List Byte
  | [] => []
  | p :: rest => bytesOf16 p ++ bytesOfPackets rest

/-- A symbol as the word `{mark, space}` of 30_encoding.md R65, four bytes low byte first. -/
def bytesOfSymbol (s : Symbol) : List Byte := bytesOf16 s.space ++ bytesOf16 s.mark

/-- Symbols laid out one after another, four bytes each. -/
def symbolsOfBytes : List Byte → Option (List Symbol)
  | [] => some []
  | s0 :: s1 :: m0 :: m1 :: rest =>
    (symbolsOfBytes rest).map (⟨le16 m0 m1, le16 s0 s1⟩ :: ·)
  | _ => none

/-- The bytes of a list of symbols. -/
def bytesOfSymbols : List Symbol → List Byte
  | [] => []
  | s :: rest => bytesOfSymbol s ++ bytesOfSymbols rest

/-- The result with this outcome code; codes 5 to 7 never occur (30_encoding.md R70). -/
def tokenOfByte (b : Byte) : Option Token :=
  match b.toNat with
  | 0 => some .done
  | 1 => some .invalidArg
  | 2 => some .timeout
  | 3 => some .fail
  | 4 => some .unknownError
  | _ => none

/-- The outcome code of a result (30_encoding.md R70). -/
def byteOfToken : Token → Byte
  | .done => 0
  | .invalidArg => 1
  | .timeout => 2
  | .fail => 3
  | .unknownError => 4

/-! ### The rows with a pattern of bits -/

/-- The mask of every PKT row: singleKey, reserved and key select (30_encoding.md R62). -/
def pktMask : BitVec 16 := 0x8FF0

/-- The PKT rows of spec/opcode_table.json: match value and constructor. -/
def pktRows : List (BitVec 16 × (Channel → Nibble → Instr)) :=
  [(0x0100, .pktStop), (0x8110, .pktLb), (0x8120, .pktLf), (0x0130, .pktLbLf),
   (0x8140, .pktRf), (0x0150, .pktLbRf), (0x0160, .pktLfRf), (0x0170, .pktLbLfRf)] ++
  [(0x8180, .pktRb), (0x0190, .pktLbRb), (0x01A0, .pktLfRb), (0x01B0, .pktLbLfRb),
   (0x01C0, .pktRfRb), (0x01D0, .pktLbRfRb), (0x01E0, .pktLfRfRb), (0x01F0, .pktLbLfRfRb)]

/-- The row a packet word matches, with its channel and checksum fields; none for a word no row matches (it is a received
artifact and no row, 30_encoding.md R63). -/
def decodePktWord (w : BitVec 16) : Option Instr :=
  (pktRows.find? fun row => w &&& pktMask == row.1).map fun row =>
    row.2 (w.extractLsb' 12 3) (w.extractLsb' 0 4)

/-- The SYM rows: the word `{mark, space}` and its constructor (30_encoding.md R66). -/
def symRows : List (BitVec 32 × Instr) :=
  [(0x009E03B6, .symStart), (0x009E0107, .symBit0), (0x009E0229, .symBit1), (0x009E7530, .symEnd)]

/-- A packet word on its interface. -/
def decodePkt : List Byte → Option Instr
  | [b0, b1] => decodePktWord (le16 b0 b1)
  | _ => none

/-- A symbol word on its interface. -/
def decodeSym : List Byte → Option Instr
  | [b0, b1, b2, b3] => symRows.lookup (le16 b2 b3 ++ le16 b0 b1)
  | _ => none

/-- A command word `(op, len, B)`: the operation code, then the `len` payload bytes (30_encoding.md R69). -/
def decodeCmd : List Byte → Option Instr
  | [] => none
  | op :: payload =>
    match op.toNat with
    | 0 => some (.append payload)
    | 1 => some (.flush payload)
    | 2 => some (.heldKey payload)
    | 3 => some (.setChan payload)
    | _ => none

/-- A transmission result code (30_encoding.md R70). -/
def decodeOut : List Byte → Option Instr
  | [b] =>
    match b.toNat with
    | 0 => some .outDone
    | 1 => some .outInvalidArg
    | 2 => some .outTimeout
    | 3 => some .outFail
    | 4 => some .outUnknownError
    | _ => none
  | _ => none

/-- A diagnostic event code followed by the value the event carries (30_encoding.md R71); code 3 never occurs. -/
def decodeDiag : List Byte → Option Instr
  | [] => none
  | code :: info =>
    match code.toNat, info with
    | 0, [] => some .diagFlushEmpty
    | 1, info => some (.diagAppendOverflow (natOfBytes info))
    | 2, [lo, hi] => some (.diagInvalidFrame (le16 lo hi))
    | _, _ => none

/-- A wake cause code (30_encoding.md R72). -/
def decodeWake : List Byte → Option Instr
  | [b] =>
    match b.toNat with
    | 0 => some .wakeContinue
    | 1 => some .wakeFlush
    | _ => none
  | _ => none

/-- A value of `arb_state`; the codes of the completion steps are followed by the drawn result (30_encoding.md R73). -/
def decodeArbState : List Byte → Option Instr
  | [b] =>
    match b.toNat with
    | 0 => some .arbStateCycle
    | 3 => some .arbStateWait
    | _ => none
  | [b, r] =>
    match b.toNat with
    | 1 => (tokenOfByte r).map .arbStateTxHeld
    | 2 => (tokenOfByte r).map .arbStateTxStop
    | 4 => (tokenOfByte r).map .arbStateTxFlush
    | _ => none
  | _ => none

/-- A value of `enc_phase` (30_encoding.md R73); code 3 never occurs. -/
def decodeEncPhase : List Byte → Option Instr
  | [b] =>
    match b.toNat with
    | 0 => some .encPhaseStart
    | 1 => some .encPhaseWord
    | 2 => some .encPhaseEnd
    | _ => none
  | _ => none

/-- A value of `batch_src` (30_encoding.md R73). -/
def decodeBatchSrc : List Byte → Option Instr
  | [b] =>
    match b.toNat with
    | 0 => some .batchSrcBuf
    | 1 => some .batchSrcQueue
    | _ => none
  | _ => none

/-! ### The operations that an interface invokes -/

/-- The part of an arbiter sub-step: 0 for its begin, 1 and a result for its completion. -/
def decodeStepPart : List Byte → Option StepPart
  | [p] => if p = 0 then some .start else none
  | [p, r] => if p = 1 then (tokenOfByte r).map .complete else none
  | _ => none

/-- The part of TRANSMIT: 0 for its begin, 1 and a capacity for a DRIVE call, 2 and a result for its end. -/
def decodeTransmitPart : List Byte → Option TransmitPart
  | [] => none
  | p :: rest =>
    match p.toNat, rest with
    | 0, [] => some .start
    | 1, rest => some (.drive (natOfBytes rest))
    | 2, [r] => (tokenOfByte r).map .finish
    | _, _ => none

/-- A call without operands. -/
def decodeNullary (i : Instr) : List Byte → Option Instr
  | [] => some i
  | _ => none

/-- A call with one packet value. -/
def decodePacketArg (f : Packet → Instr) : List Byte → Option Instr
  | [lo, hi] => some (f (le16 lo hi))
  | _ => none

/-- A call with one symbol. -/
def decodeSymbolArg (f : Symbol → Instr) : List Byte → Option Instr
  | [s0, s1, m0, m1] => some (f ⟨le16 m0 m1, le16 s0 s1⟩)
  | _ => none

/-- The call of `op` with these operand bytes. -/
def decodeCall (op : CallOp) (bytes : List Byte) : Option Instr :=
  match op with
  | .checksum => decodePacketArg .checksum bytes
  | .singleKey =>
    match bytes with
    | [k] => (narrowByte 4 k).map .singleKey
    | _ => none
  | .encode =>
    match bytes with
    | [k, c] => (narrowByte 4 k).bind fun k => (narrowByte 3 c).map (.encode k)
    | _ => none
  | .validate => decodePacketArg .validate bytes
  | .wireBit =>
    match bytes with
    | [lo, hi, i] => (narrowByte 4 i).map (.wireBit (le16 lo hi))
    | _ => none
  | .frameSeq => (packetsOfBytes bytes).map .frameSeq
  | .encReset => decodeNullary .encReset bytes
  | .drive => some (.drive (natOfBytes bytes))
  | .waveform => (symbolsOfBytes bytes).map .waveform
  | .isStart => decodeSymbolArg .isStart bytes
  | .classify => decodeSymbolArg .classify bytes
  | .decode => (symbolsOfBytes bytes).map .decode
  | .arbHeld => (decodeStepPart bytes).map .arbHeld
  | .arbStop => (decodeStepPart bytes).map .arbStop
  | .arbFlush => (decodeStepPart bytes).map .arbFlush
  | .arbCycle => decodeNullary .arbCycle bytes
  | .arbWait => decodeNullary .arbWait bytes
  | .transmit => (decodeTransmitPart bytes).map .transmit

/-- The decoder: the operation a request asks for, or none where its bytes are no row of its interface's format. -/
def decode (r : Request) : Option Instr :=
  match r.iface with
  | .pkt => decodePkt r.bytes
  | .sym => decodeSym r.bytes
  | .cmd => decodeCmd r.bytes
  | .out => decodeOut r.bytes
  | .diag => decodeDiag r.bytes
  | .wake => decodeWake r.bytes
  | .arbState => decodeArbState r.bytes
  | .encPhase => decodeEncPhase r.bytes
  | .batchSrc => decodeBatchSrc r.bytes
  | .call op => decodeCall op r.bytes

/-! ### The encoder -/

/-- A packet word from its row's match value and its two fields (30_encoding.md R60, R62). -/
def encodePkt (rowMatch : BitVec 16) (channel : Channel) (checksum : Nibble) : Request :=
  ⟨.pkt, bytesOf16 (rowMatch ||| channel.setWidth 16 <<< 12 ||| checksum.setWidth 16)⟩

/-- A symbol word from its mark and its space (30_encoding.md R65, R66). -/
def encodeSym (mark space : Dur) : Request := ⟨.sym, bytesOf16 space ++ bytesOf16 mark⟩

/-- The bytes of an arbiter sub-step's part. -/
def bytesOfStepPart : StepPart → List Byte
  | .start => [0]
  | .complete r => [1, byteOfToken r]

/-- The bytes of TRANSMIT's part. -/
def bytesOfTransmitPart : TransmitPart → List Byte
  | .start => [0]
  | .drive cap => 1 :: bytesOfNat cap
  | .finish r => [2, byteOfToken r]

/-- The encoder: the interface and the bytes of an operation. -/
def encode : Instr → Request
  | .pktStop c x => encodePkt 0x0100 c x
  | .pktLb c x => encodePkt 0x8110 c x
  | .pktLf c x => encodePkt 0x8120 c x
  | .pktLbLf c x => encodePkt 0x0130 c x
  | .pktRf c x => encodePkt 0x8140 c x
  | .pktLbRf c x => encodePkt 0x0150 c x
  | .pktLfRf c x => encodePkt 0x0160 c x
  | .pktLbLfRf c x => encodePkt 0x0170 c x
  | .pktRb c x => encodePkt 0x8180 c x
  | .pktLbRb c x => encodePkt 0x0190 c x
  | .pktLfRb c x => encodePkt 0x01A0 c x
  | .pktLbLfRb c x => encodePkt 0x01B0 c x
  | .pktRfRb c x => encodePkt 0x01C0 c x
  | .pktLbRfRb c x => encodePkt 0x01D0 c x
  | .pktLfRfRb c x => encodePkt 0x01E0 c x
  | .pktLbLfRfRb c x => encodePkt 0x01F0 c x
  | .symStart => encodeSym 158 950
  | .symBit0 => encodeSym 158 263
  | .symBit1 => encodeSym 158 553
  | .symEnd => encodeSym 158 30000
  | .append payload => ⟨.cmd, 0 :: payload⟩
  | .flush payload => ⟨.cmd, 1 :: payload⟩
  | .heldKey payload => ⟨.cmd, 2 :: payload⟩
  | .setChan payload => ⟨.cmd, 3 :: payload⟩
  | .outDone => ⟨.out, [0]⟩
  | .outInvalidArg => ⟨.out, [1]⟩
  | .outTimeout => ⟨.out, [2]⟩
  | .outFail => ⟨.out, [3]⟩
  | .outUnknownError => ⟨.out, [4]⟩
  | .diagFlushEmpty => ⟨.diag, [0]⟩
  | .diagAppendOverflow dropped => ⟨.diag, 1 :: bytesOfNat dropped⟩
  | .diagInvalidFrame v => ⟨.diag, 2 :: bytesOf16 v⟩
  | .wakeContinue => ⟨.wake, [0]⟩
  | .wakeFlush => ⟨.wake, [1]⟩
  | .arbStateCycle => ⟨.arbState, [0]⟩
  | .arbStateTxHeld r => ⟨.arbState, [1, byteOfToken r]⟩
  | .arbStateTxStop r => ⟨.arbState, [2, byteOfToken r]⟩
  | .arbStateWait => ⟨.arbState, [3]⟩
  | .arbStateTxFlush r => ⟨.arbState, [4, byteOfToken r]⟩
  | .encPhaseStart => ⟨.encPhase, [0]⟩
  | .encPhaseWord => ⟨.encPhase, [1]⟩
  | .encPhaseEnd => ⟨.encPhase, [2]⟩
  | .batchSrcBuf => ⟨.batchSrc, [0]⟩
  | .batchSrcQueue => ⟨.batchSrc, [1]⟩
  | .checksum v => ⟨.call .checksum, bytesOf16 v⟩
  | .singleKey k => ⟨.call .singleKey, [k.setWidth 8]⟩
  | .encode k c => ⟨.call .encode, [k.setWidth 8, c.setWidth 8]⟩
  | .validate p => ⟨.call .validate, bytesOf16 p⟩
  | .wireBit p i => ⟨.call .wireBit, bytesOf16 p ++ [i.setWidth 8]⟩
  | .frameSeq batch => ⟨.call .frameSeq, bytesOfPackets batch⟩
  | .encReset => ⟨.call .encReset, []⟩
  | .drive cap => ⟨.call .drive, bytesOfNat cap⟩
  | .waveform syms => ⟨.call .waveform, bytesOfSymbols syms⟩
  | .isStart sym => ⟨.call .isStart, bytesOfSymbol sym⟩
  | .classify sym => ⟨.call .classify, bytesOfSymbol sym⟩
  | .decode capture => ⟨.call .decode, bytesOfSymbols capture⟩
  | .arbHeld part => ⟨.call .arbHeld, bytesOfStepPart part⟩
  | .arbStop part => ⟨.call .arbStop, bytesOfStepPart part⟩
  | .arbFlush part => ⟨.call .arbFlush, bytesOfStepPart part⟩
  | .arbCycle => ⟨.call .arbCycle, []⟩
  | .arbWait => ⟨.call .arbWait, []⟩
  | .transmit part => ⟨.call .transmit, bytesOfTransmitPart part⟩

/-! ### Words of the opcode table -/

/-- `n` bytes of `w`, low byte first. -/
def wordBytes : Nat → Nat → List Byte
  | 0, _ => []
  | n + 1, w => BitVec.ofNat 8 w :: wordBytes n (w / 256)

/-- The request a word of spec/opcode_table.json stands for, from its width in whole bytes. 16 bits are a PKT word and 32
bits a SYM word; among the 8-bit formats, which share their codes, the first in the table's order that has the code is taken:
CMD for 0 to 3 (with one payload byte of zeros, the operand the table gives no bits), OUT above (log 11). -/
def tableRequest (nbits w : Nat) : Request :=
  if nbits = 8 then
    if w < 4 then ⟨.cmd, wordBytes 1 w ++ [0]⟩ else ⟨.out, wordBytes 1 w⟩
  else if nbits = 32 then ⟨.sym, wordBytes 4 w⟩
  else ⟨.pkt, wordBytes (nbits / 8) w⟩

/-- The operation the decoder reads from a word of the opcode table. -/
def decodeTableWord (nbits w : Nat) : Option Instr := decode (tableRequest nbits w)

end Sys2Proof
end

