-- ==== Sys2Proof/Machine/State.lean ====
section
/-! DEFINITION. The state of the block (10_state.md R10 to R29), its output histories (R24), the environment's side of its
interfaces, and the reasons a step can stop. -/

namespace Sys2Proof.Machine

/-- `enc_phase` (10_state.md R18); the unused code 3 is unrepresentable (30_encoding.md R73). -/
inductive EncPhase where
  | start
  | word
  | fin
  deriving DecidableEq, Repr

/-- `batch_src` (10_state.md R22). -/
inductive BatchSrc where
  | buf
  | queue
  deriving DecidableEq, Repr

/-- `arb_state` (10_state.md R23); the unused codes 5 to 7 are unrepresentable (30_encoding.md R73). -/
inductive ArbState where
  | cycle
  | txHeld
  | txStop
  | wait
  | txFlush
  deriving DecidableEq, Repr

/-- The level of the transmit line (41_pulse_encoder.md R122). -/
inductive Level where
  | active
  | idle
  deriving DecidableEq, Repr

/-- One `(level, duration)` segment of the line (41_pulse_encoder.md R123). -/
structure Segment where
  level : Level
  duration : Dur
  deriving DecidableEq, Repr

/-- One `(packet, valid)` result of a DECODE call (42_pulse_decoder.md R140, R144). -/
structure Frame where
  packet : Packet
  valid : Bool
  deriving DecidableEq, Repr

/-- The result a pure operation, a DRIVE call or a row operation returns to its caller (log 30). -/
inductive Value where
  /-- CHECKSUM: 4 bits (R90). -/
  | nibble (n : Nibble)
  /-- SINGLEKEY, WIREBIT, CLASSIFY: 1 bit (R92, R111, R142). -/
  | bit (b : Bool)
  /-- VALIDATE, ISSTART: a boolean (R96, R141). -/
  | verdict (b : Bool)
  /-- ENCODE, and the packet a BATCHSRC row reads (R94, R22). -/
  | packet (p : Packet)
  /-- A PKT row: the value ENCODE(key, channel), and whether the presented word conforms (R75, R62). -/
  | row (p : Packet) (conforming : Bool)
  /-- FRAMESEQ (R113). -/
  | symbols (l : List Symbol)
  /-- WAVEFORM (R123). -/
  | waveform (l : List Segment)
  /-- DRIVE: the symbols and the completion flag (R117). -/
  | driven (out : List Symbol) (completed : Bool)
  deriving DecidableEq, Repr

/-- The queue memory `q_mem` by byte address (20_memory.md R40): entry `i` is the bytes at `2*i` (low) and `2*i + 1`. The list
is kept with strictly rising addresses below 256 (`Memory.wf` in Machine/Ops.lean); an address that is not listed has no value
(10_state.md R11: unspecified at reset, "must not assume zero") (log 20, 21). -/
abbrev Memory := List Host.Cell

/-- The whole state: the elements of 10_state.md R10, the outputs of R24 as histories, and the environment's side. -/
structure State where
  /-- `q_mem` (R11). -/
  qMem : Memory
  /-- `q_count`, 0 to 128 (R12). -/
  qCount : Nat
  /-- `q_lock` (R13). -/
  qLock : Bool
  /-- `held_key`; 0 is no key (R14). -/
  heldKey : Key
  /-- `stop_sent` (R15). -/
  stopSent : Bool
  /-- `channel` (R16). -/
  channel : Channel
  /-- `wake_continue` (R17). -/
  wakeContinue : Bool
  /-- `wake_flush` (R17). -/
  wakeFlush : Bool
  /-- `enc_phase` (R18). -/
  encPhase : EncPhase
  /-- `enc_index`, 0 to 127 (R19). -/
  encIndex : Nat
  /-- `enc_bit`, 0 to 15 (R20). -/
  encBit : Nat
  /-- `enc_total`, wraps modulo 2^32 (R21). -/
  encTotal : BitVec 32
  /-- `enc_done` (R29). -/
  encDone : Bool
  /-- `batch_src` (R22). -/
  batchSrc : BatchSrc
  /-- `batch_n`, 0 to 128 (R22). -/
  batchN : Nat
  /-- `tx_buf[0]`, read as `x[0]` (R22, R7). -/
  txBuf0 : Packet
  /-- `tx_buf[1]`, read as `x[1]` (R22, R7). -/
  txBuf1 : Packet
  /-- `arb_state` (R23). -/
  arbState : ArbState
  /-- Output (a) of R24: every symbol DRIVE has returned. -/
  symbols : List Symbol
  /-- Output (b) of R24: the outcome tokens. -/
  tokens : List Token
  /-- Output (c) of R24: the diagnostic events. -/
  diags : List Diag
  /-- Output (d) of R24: the frames of each DECODE call. -/
  decoded : List (List Frame)
  /-- The MODEL's own: the results returned to callers (log 30). -/
  values : List Value
  /-- What the transmit line has carried (41_pulse_encoder.md R123, 44_arbiter.md R194). -/
  line : List Segment
  /-- The MODEL's own: symbols handed over in the outstanding transmission and not yet on the line (log 18). -/
  txPending : List Symbol
  /-- The MODEL's own: the commands waiting at the command port, oldest first (43_commands.md R160) (log 12). -/
  port : List Command
  /-- The MODEL's own: what the environment does next, in its interleaving (20_memory.md R53) (log 1). -/
  inbox : List Event
  deriving DecidableEq, Repr

/-- Why the machine stops with a fault. Each is raised by a memory or batch access of Machine/Ops.lean that no state reached
from reset makes (`Safety.BlockInv` rules them out); stopping is safe (log 20, 29). -/
inductive Fault where
  /-- A read of a byte of `q_mem` that nothing has written: its contents are unspecified (R11, V1). Safe. -/
  | unwrittenByte (address : Nat)
  /-- An access to an entry of `q_mem` from 128 on, which "does not exist" (R49, S3). Safe. -/
  | noSuchEntry (index : Nat)
  /-- A read of `batch[i]` outside `0 <= i < batch_n`, or of `tx_buf[i]` outside 0..1 (R22). Safe. -/
  | outsideBatch (index : Nat)
  deriving DecidableEq, Repr

/-- Why the machine refuses an operation: the spec gives the input no meaning ("`refuse`", 00_scope.md R7), so the model gives
it no step. Refusing is safe: nothing can be proved of what the hardware would do. -/
inductive Refusal where
  /-- Raised by `exec` for an operation that has no meaning yet. Safe. -/
  | notModelled (mnemonic : String)
  /-- Raised by `step`: the bytes are no row of their interface's format (R70, R71, R73: codes that never occur). Safe. -/
  | badEncoding
  /-- Raised by HELDKEY with `len != 1` (R167, U3). Safe. -/
  | heldKeyLength
  /-- Raised by SETCHAN with `len != 1` (R169, U4). Safe. -/
  | setChanLength
  /-- Raised by DRIVE while no transmission is outstanding (R117, U1). Safe. -/
  | driveOutsideTransmission
  /-- Raised by DRIVE after the call that reported completion (R117, R119, U2). Safe. -/
  | driveAfterCompletion
  /-- Raised by DRIVE and FRAMESEQ for a batch of zero packets (R117, R8, U5). Safe. -/
  | emptyBatch
  /-- Raised by an ENCPHASE row in another phase: that beat is not the next one (R117). Safe. -/
  | otherPhase
  /-- Raised by a BATCHSRC row when DRIVE would not read `batch[enc_index]` from that source: no transmission is outstanding,
  the batch is complete, it is presented from the other source, or it holds no packet at `enc_index` (R22, R117, R11, V1).
  Safe. -/
  | notPresented
  /-- Raised by an arbiter step that `arb_state`, `held_key`, `stop_sent` or the wake bits do not enable: "Every transition is
  listed; there is no other" (R181). Safe. -/
  | stepNotEnabled
  /-- Raised by a transmission result while no transmission is outstanding (R194, U7). Safe. -/
  | noTransmission
  /-- Raised by the result `done` while `enc_done = 0` (R194, vector A20). Safe. -/
  | doneBeforeEncoder
  /-- Raised by TRANSMIT's begin while a transmission is outstanding (R195, R57). Safe. -/
  | transmissionOutstanding
  /-- Raised by ENC_RESET and by TRANSMIT's begin where the arbiter's next step begins no transmission: that begin requests the
  reset "and nobody else" (R115, R236, D7). Safe. -/
  | resetOutsideBegin
  /-- Raised by a SYM row that is not the next symbol handed over: symbols are played in the order DRIVE returned them (R123,
  R194). Safe. -/
  | notNextSymbol
  deriving DecidableEq, Repr

/-- The outcome of an operation on this machine. -/
abbrev StepResult := Host.Outcome State Fault Refusal

/-- The state after reset (10_state.md R28, 70_reset_and_hazards.md R250). `tx_buf` is unspecified there and never read before
it is written; 0 is a DESIGN CHOICE (log 19). The histories, the port and the inbox are empty. -/
def State.reset : State where
  qMem := []
  qCount := 0
  qLock := false
  heldKey := 0
  stopSent := true
  channel := Config.channelDefault
  wakeContinue := false
  wakeFlush := false
  encPhase := .start
  encIndex := 0
  encBit := 0
  encTotal := 0
  encDone := false
  batchSrc := .buf
  batchN := 0
  txBuf0 := 0
  txBuf1 := 0
  arbState := .cycle
  symbols := []
  tokens := []
  diags := []
  decoded := []
  values := []
  line := []
  txPending := []
  port := []
  inbox := []

end Sys2Proof.Machine
end

