-- ==== Sys2Proof/Machine/Operands.lean ====
section
/-! DEFINITION. Operand forms: packet fields and their placement, the wire order, payload units, the symbol alphabet, frames,
the line's waveform, and the receive classification. -/

namespace Sys2Proof.Machine

/-! ### Packet fields (30_encoding.md R60, 40_packet_checksum.md R99) -/

/-- `CK(p)`, bits 3:0. -/
def ckField (p : Packet) : Nibble := p.extractLsb' 0 4

/-- `KEY(p)`, bits 7:4. -/
def keyField (p : Packet) : Key := p.extractLsb' 4 4

/-- `RESERVED(p)`, bits 11:8. -/
def reservedField (p : Packet) : Nibble := p.extractLsb' 8 4

/-- `CHAN(p)`, bits 14:12. -/
def chanField (p : Packet) : Channel := p.extractLsb' 12 3

/-- `SK(p)`, bit 15. -/
def skField (p : Packet) : Bool := p.getLsbD 15

/-- Nibble 3 of a value, bits 15:12: `{singleKey, channel}`. -/
def topNibble (p : Packet) : Nibble := p.extractLsb' 12 4

/-- The displayed channel number, `CHAN(p) + 1` (R99). -/
def displayedChannel (p : Packet) : Nat := (chanField p).toNat + 1

/-- `RESERVED_TX`, the reserved field of every transmitted packet (00_scope.md R4). -/
def reservedTx : Nibble := 0x1

/-- `{singleKey, channel, reserved, key, checksum}`, the packet of five fields (R60). -/
def packFields (sk : Bool) (c : Channel) (reserved : Nibble) (k : Key) (ck : Nibble) : Packet :=
  BitVec.ofBool sk ++ c ++ reserved ++ k ++ ck

/-- `SWAPBYTES(p) = {p[7:0], p[15:8]}` (R99). -/
def swapBytes (p : Packet) : Packet := p.extractLsb' 0 8 ++ p.extractLsb' 8 8

/-- `WIREBIT(p, i)`: the bit-symbols of a frame carry the byte-exchanged value, most significant bit first
(41_pulse_encoder.md R111). -/
def wireBit (p : Packet) (i : Nat) : Bool := (swapBytes p).getLsbD (15 - i)

/-! ### Command payloads -/

/-- The units of an Append payload: `{B[2j+1], B[2j]}`, an odd last byte ignored (20_memory.md R44, R47). -/
def payloadUnits : List Byte → List Packet
  | lo :: hi :: rest => (hi ++ lo : BitVec 16) :: payloadUnits rest
  | _ => []

/-- `B[0][3:0]`, the key of a HELDKEY payload (43_commands.md R167). -/
def payloadKey (b : Byte) : Key := b.extractLsb' 0 4

/-- `B[0][2:0]`, the channel of a SETCHAN payload (43_commands.md R169). -/
def payloadChannel (b : Byte) : Channel := b.extractLsb' 0 3

/-! ### The transmit alphabet (30_encoding.md R66; the literals are unaudited, log 26) -/

/-- `T_MARK`, the mark of every symbol. -/
def tMark : Dur := 158

/-- `SYM_START`. -/
def startSymbol : Symbol := ⟨tMark, 950⟩

/-- `SYM_BIT0`. -/
def bit0Symbol : Symbol := ⟨tMark, 263⟩

/-- `SYM_BIT1`. -/
def bit1Symbol : Symbol := ⟨tMark, 553⟩

/-- `SYM_END`. -/
def endSymbol : Symbol := ⟨tMark, 30000⟩

/-- `BITSYM(b)` (41_pulse_encoder.md R112). -/
def bitSym (b : Bool) : Symbol := if b then bit1Symbol else bit0Symbol

/-- `FRAME(p)`: 18 symbols (30_encoding.md R68, 41_pulse_encoder.md R113). -/
def frameOf (p : Packet) : List Symbol :=
  startSymbol :: ((List.range 16).map fun i => bitSym (wireBit p i)) ++ [endSymbol]

/-- `FRAMESEQ(batch)` (41_pulse_encoder.md R113). -/
def frameSeq (batch : List Packet) : List Symbol := batch.flatMap frameOf

/-! ### The line (41_pulse_encoder.md R122, R123) -/

/-- `WAVEFORM(syms)`: each symbol is the line active for its mark, then idle for its space. -/
def waveform : List Symbol → List Segment
  | [] => []
  | s :: rest => ⟨.active, s.mark⟩ :: ⟨.idle, s.space⟩ :: waveform rest

/-- The total duration of a list of symbols, the sum of all marks and spaces (R123). -/
def totalDuration : List Symbol → Nat
  | [] => 0
  | s :: rest => s.mark.toNat + s.space.toNat + totalDuration rest

/-! ### Receive classification (30_encoding.md R67, 42_pulse_decoder.md R141, R142)

The receive rules read a `space` only and hold for any natural number (R140, D2). -/

/-- `ISSTART` on a space: the start-marker window, both ends included (R141, D9). -/
def isStartSpace (space : Nat) : Bool := decide (800 ≤ space) && decide (space ≤ 1100)

/-- `CLASSIFY` on a space: 1 from 320 up (R142). -/
def classifySpace (space : Nat) : Bool := decide (320 ≤ space)

/-- The 16-bit value of the data spaces after a start marker: the first one becomes bit 15 (R144). -/
def assembleBits (spaces : List Nat) : Packet :=
  spaces.foldl (fun v space => v <<< 1 ||| (if classifySpace space then 1 else 0)) 0

end Sys2Proof.Machine
end

