-- ==== Sys2Proof/Machine/Flags.lean ====
section
/-! DEFINITION. The derived flags of a packet: its checksum, its single-key flag, the verdict of VALIDATE, conformance; and
ENCODE, which places them. -/

namespace Sys2Proof.Machine

/-- `CHECKSUM(v) = 0xF XOR v[15:12] XOR v[11:8] XOR v[7:4]` (40_packet_checksum.md R90); bits 3:0 never enter (R91). -/
def checksumOf (v : Packet) : Nibble := 0xF ^^^ topNibble v ^^^ reservedField v ^^^ keyField v

/-- `SINGLEKEY(k)` (R92). -/
def singleKeyOf (k : Key) : Bool := k == 0x1 || k == 0x2 || k == 0x4 || k == 0x8

/-- `ENCODE(k, c)`: the checksum is computed with its own field zero, then placed (R94). -/
def encodePacket (k : Key) (c : Channel) : Packet :=
  let u := packFields (singleKeyOf k) c reservedTx k 0
  u ||| (checksumOf u).setWidth 16

/-- `VALIDATE(p)`: the checksum only (R96, D11). -/
def validPacket (p : Packet) : Bool := ckField p == checksumOf p

/-- A conforming packet, fit for transmission (30_encoding.md R62). -/
def conforming (p : Packet) : Bool :=
  reservedField p == reservedTx && skField p == singleKeyOf (keyField p) && validPacket p

end Sys2Proof.Machine
end

