-- ==== Sys2Proof/Machine/Ops.lean ====
section
/-! DEFINITION. The named operations over memory and state that the meanings share: the queue memory, the outputs, the wake
bits, the encoder's cursor and DRIVE, the transmission and its end, the arbiter's steps, the command port, the decoder's scan. -/

namespace Sys2Proof.Machine

/-! ### The queue memory (20_memory.md R40, 00_scope.md R7) -/

/-- The canonical form of the memory: addresses strictly rising and below 256. An unlisted address has no value, so no entry
can equal what an unlisted address reads as. -/
abbrev Memory.wf (m : Memory) : Prop :=
  m.Pairwise (fun x y => x.1 < y.1) ∧ ∀ cell ∈ m, cell.1 < 2 * Config.queueCapacity

/-- The byte at an address, none where nothing has been written. -/
def Memory.readByte : Memory → Nat → Option Byte
  | [], _ => none
  | (x, v) :: rest, a => if a = x then some v else Memory.readByte rest a

/-- The memory with one byte written, the addresses still rising. -/
def Memory.writeByte : Memory → Nat → Byte → Memory
  | [], a, b => [(a, b)]
  | (x, v) :: rest, a, b =>
    if a < x then (a, b) :: (x, v) :: rest
    else if a = x then (a, b) :: rest
    else (x, v) :: Memory.writeByte rest a b

/-- `q_mem[i]` = `MemRead(2*i, 2)` (R7). -/
def readEntry (m : Memory) (i : Nat) : Except Fault Packet :=
  if i < Config.queueCapacity then
    match m.readByte (2 * i), m.readByte (2 * i + 1) with
    | some lo, some hi => .ok (hi ++ lo)
    | none, _ => .error (.unwrittenByte (2 * i))
    | some _, none => .error (.unwrittenByte (2 * i + 1))
  else .error (.noSuchEntry i)

/-- `q_mem[i] <- v` = `MemWrite(2*i, 2, v)` (R7). -/
def writeEntry (m : Memory) (i : Nat) (v : Packet) : Except Fault Memory :=
  if i < Config.queueCapacity then
    .ok ((m.writeByte (2 * i) (v.extractLsb' 0 8)).writeByte (2 * i + 1) (v.extractLsb' 8 8))
  else .error (.noSuchEntry i)

/-- Packets written at entries `i`, `i + 1`, … in order (43_commands.md R162). -/
def writeEntries (m : Memory) (i : Nat) : List Packet → Except Fault Memory
  | [] => .ok m
  | p :: rest =>
    match writeEntry m i p with
    | .error f => .error f
    | .ok m' => writeEntries m' (i + 1) rest

/-- The in-place rewrite of a flush: `n` entries from `i` up, each replaced by `ENCODE(KEY(entry), c)` (44_arbiter.md R190). -/
def rebuildEntries (c : Channel) : Nat → Nat → Memory → Except Fault Memory
  | 0, _, m => .ok m
  | n + 1, i, m =>
    match readEntry m i with
    | .error f => .error f
    | .ok p =>
      match writeEntry m i (encodePacket (keyField p) c) with
      | .error f => .error f
      | .ok m' => rebuildEntries c n (i + 1) m'

/-! ### Outputs and wake bits -/

/-- A result returned to its caller. -/
def State.returns (s : State) (v : Value) : State := { s with values := s.values ++ [v] }

/-- `raise E(info)` (60_exceptions.md R222): the event is appended to the diagnostic stream and the operation continues. It
stands where a processor takes an exception: "There is no trap entry" (R233), nothing is saved and nothing else changes. -/
def State.raiseDiag (s : State) (d : Diag) : State := { s with diags := s.diags ++ [d] }

/-- `notify(token)` (44_arbiter.md R198). -/
def State.notify (s : State) (t : Token) : State := { s with tokens := s.tokens ++ [t] }

/-- The wake cause continue is raised (10_state.md R17). -/
def State.raiseContinue (s : State) : State := { s with wakeContinue := true }

/-- The wake cause flush is raised (10_state.md R17). -/
def State.raiseFlush (s : State) : State := { s with wakeFlush := true }

/-- Both causes are consumed together (44_arbiter.md R188). -/
def State.clearWakes (s : State) : State := { s with wakeContinue := false, wakeFlush := false }

/-- `arb_state <- a`. -/
def State.setArb (s : State) (a : ArbState) : State := { s with arbState := a }

/-- `stop_sent <- b`. -/
def State.setStopSent (s : State) (b : Bool) : State := { s with stopSent := b }

/-- The queue's memory and count. -/
def State.setQueue (s : State) (m : Memory) (n : Nat) : State := { s with qMem := m, qCount := n }

/-- `q_lock <- b`. -/
def State.setLock (s : State) (b : Bool) : State := { s with qLock := b }

/-- `tx_buf <- [p0, p1]`. -/
def State.setBuffers (s : State) (p0 p1 : Packet) : State := { s with txBuf0 := p0, txBuf1 := p1 }

/-- `batch_src <- src ; batch_n <- n` (10_state.md R22). -/
def State.present (s : State) (src : BatchSrc) (n : Nat) : State := { s with batchSrc := src, batchN := n }

/-- `held_key <- k`. -/
def State.setHeldKey (s : State) (k : Key) : State := { s with heldKey := k }

/-- `channel <- c`. -/
def State.setChannel (s : State) (c : Channel) : State := { s with channel := c }

/-- The results of a DECODE call and its events go to their streams (42_pulse_decoder.md R144). -/
def State.deliver (s : State) (frames : List Frame) (events : List Diag) : State :=
  { s with decoded := s.decoded ++ [frames], diags := s.diags ++ events }

/-- A symbol is carried by the line; `rest` still waits (41_pulse_encoder.md R123). -/
def State.playOne (s : State) (sym : Symbol) (rest : List Symbol) : State :=
  { s with line := s.line ++ waveform [sym], txPending := rest }

/-- The commands waiting at the port. -/
def State.setPort (s : State) (p : List Command) : State := { s with port := p }

/-- What the environment does next. -/
def State.setInbox (s : State) (l : List Event) : State := { s with inbox := l }

/-! ### The encoder (41_pulse_encoder.md) -/

/-- ENC_RESET (R115): Start/0, `enc_done` cleared, `enc_total` unchanged. -/
def State.encReset (s : State) : State :=
  { s with encPhase := .start, encIndex := 0, encBit := 0, encDone := false }

/-- The cursor in the given phase, index and bit. -/
def State.setCursor (s : State) (phase : EncPhase) (index bit : Nat) : State :=
  { s with encPhase := phase, encIndex := index, encBit := bit }

/-- The batch completes: the cursor at Start/0, `enc_total` grown by `batch_n` modulo 2^32, `enc_done` set (R117). -/
def State.completeBatch (s : State) : State :=
  { s with encPhase := .start, encIndex := 0, encTotal := s.encTotal + BitVec.ofNat 32 s.batchN, encDone := true }

/-- The symbols of a DRIVE call are handed over: they join the symbol stream and wait to be played (R117, R123). -/
def State.handOver (s : State) (out : List Symbol) : State :=
  { s with symbols := s.symbols ++ out, txPending := s.txPending ++ out }

/-- A transmission is outstanding: `arb_state` is TX_HELD, TX_STOP or TX_FLUSH (R117). -/
def outstanding (s : State) : Bool :=
  match s.arbState with
  | .cycle => false
  | .txHeld => true
  | .txStop => true
  | .wait => false
  | .txFlush => true

/-- `batch[i]`: `tx_buf[i]` or `q_mem[i]` by `batch_src`, for `0 <= i < batch_n` (10_state.md R22). -/
def readBatch (s : State) (i : Nat) : Except Fault Packet :=
  if i < s.batchN then
    match s.batchSrc with
    | .queue => readEntry s.qMem i
    | .buf =>
      match i with
      | 0 => .ok s.txBuf0
      | 1 => .ok s.txBuf1
      | _ => .error (.outsideBatch i)
  else .error (.outsideBatch i)

/-- One round of DRIVE's loop: the symbol it emits, whether it completes the batch, and the state after (R117). -/
def beat (s : State) : Except Fault (Symbol × Bool × State) :=
  match readBatch s s.encIndex with
  | .error f => .error f
  | .ok p =>
    match s.encPhase with
    | .start => .ok (startSymbol, false, s.setCursor .word s.encIndex 0)
    | .word =>
      if s.encBit = 15 then .ok (bitSym (wireBit p s.encBit), false, s.setCursor .fin s.encIndex 0)
      else .ok (bitSym (wireBit p s.encBit), false, s.setCursor .word s.encIndex (s.encBit + 1))
    | .fin =>
      if s.encIndex + 1 = s.batchN then .ok (endSymbol, true, s.completeBatch)
      else .ok (endSymbol, false, s.setCursor .start (s.encIndex + 1) s.encBit)

/-- DRIVE's loop with room for `cap` more symbols: the capacity is tested before every symbol, and the call that emits the
last End returns at once (R117). -/
def driveLoop : Nat → State → Except Fault (List Symbol × Bool × State)
  | 0, s => .ok ([], false, s)
  | cap + 1, s =>
    match beat s with
    | .error f => .error f
    | .ok (sym, true, s') => .ok ([sym], true, s')
    | .ok (sym, false, s') =>
      match driveLoop cap s' with
      | .error f => .error f
      | .ok (out, completed, s'') => .ok (sym :: out, completed, s'')

/-- DRIVE(cap) (R117), with its three refusals (U1, U2, U5). -/
def driveCall (cap : Nat) (s : State) : StepResult :=
  if outstanding s then
    if s.encDone then .refused .driveAfterCompletion
    else if s.batchN = 0 then .refused .emptyBatch
    else
      match driveLoop cap s with
      | .error f => .fault f
      | .ok (out, completed, s') => .next ((s'.handOver out).returns (.driven out completed))
  else .refused .driveOutsideTransmission

/-- One beat of the stream view, `DRIVE(1)`, in the given phase (R120, R117). -/
def driveBeat (phase : EncPhase) (s : State) : StepResult :=
  if outstanding s ∧ ¬ s.encDone ∧ s.encPhase ≠ phase then .refused .otherPhase
  else driveCall 1 s

/-- The read DRIVE makes of the current packet `batch[enc_index]` when it is presented from `src` (10_state.md R22). It is made
only where DRIVE is enabled, while a transmission is outstanding with `enc_done = 0` (R117): outside a transmission an entry
of the queue at or above `q_count` could be meant, which no rule reads (R7, R11, V1) (log 9). -/
def readPresented (src : BatchSrc) (s : State) : StepResult :=
  if outstanding s = true ∧ s.encDone = false ∧ s.batchSrc = src ∧ s.encIndex < s.batchN then
    match readBatch s s.encIndex with
    | .error f => .fault f
    | .ok p => .next (s.returns (.packet p))
  else .refused .notPresented

/-! ### One transmission (44_arbiter.md R194) -/

/-- The transmit peripheral plays `sym`, which must be the next symbol handed over (R123, R194) (log 3, 18). -/
def playSymbol (sym : Symbol) (s : State) : StepResult :=
  match s.txPending with
  | [] => .refused .notNextSymbol
  | next :: rest =>
    if next = sym then .next (s.playOne sym rest)
    else .refused .notNextSymbol

/-- The line at the end of a transmission: with `done` every symbol handed over is carried; with any other result the line
keeps the prefix played so far and the rest is lost (R194, V5). -/
def State.settleLine (s : State) (r : Token) : State :=
  match r with
  | .done => { s with line := s.line ++ waveform s.txPending, txPending := [] }
  | .invalidArg => { s with txPending := [] }
  | .timeout => { s with txPending := [] }
  | .fail => { s with txPending := [] }
  | .unknownError => { s with txPending := [] }

/-- "r = done only if enc_done = 1" (R194). -/
def resultAllowed (r : Token) (s : State) : Bool := r != .done || s.encDone

/-- ARB_HELD completion (R185): the result is ignored, `stop_sent` cleared, back to CYCLE. -/
def heldEnd (r : Token) (s : State) : StepResult :=
  if s.arbState = .txHeld then
    if resultAllowed r s then .next (((s.settleLine r).setStopSent false).setArb .cycle)
    else .refused .doneBeforeEncoder
  else .refused .stepNotEnabled

/-- ARB_STOP completion (R187): the result is ignored, `stop_sent` set, back to CYCLE. -/
def stopEnd (r : Token) (s : State) : StepResult :=
  if s.arbState = .txStop then
    if resultAllowed r s then .next (((s.settleLine r).setStopSent true).setArb .cycle)
    else .refused .doneBeforeEncoder
  else .refused .stepNotEnabled

/-- ARB_FLUSH completion (R191): the token is published, then the queue count cleared, then the lock. -/
def flushEnd (r : Token) (s : State) : StepResult :=
  if s.arbState = .txFlush then
    if resultAllowed r s then
      .next (((((s.settleLine r).notify r).setQueue s.qMem 0).setLock false).setArb .cycle)
    else .refused .doneBeforeEncoder
  else .refused .stepNotEnabled

/-- `TXRESULT r` (30_encoding.md R75): the outstanding transmission ends with `r` and the arbiter takes the matching
completion step (R194, R185, R187, R191). This is also what a failed transmission does (60_exceptions.md R226). -/
def endTransmission (r : Token) (s : State) : StepResult :=
  match s.arbState with
  | .cycle => .refused .noTransmission
  | .txHeld => heldEnd r s
  | .txStop => stopEnd r s
  | .wait => .refused .noTransmission
  | .txFlush => flushEnd r s

/-- TRANSMIT_begin: ENC_RESET (R194). -/
def transmitBegin (s : State) : State := s.encReset

/-! ### The arbiter's steps (44_arbiter.md) -/

/-- ARB_HELD begin (R184). -/
def heldBegin (k : Key) (c : Channel) (s : State) : State :=
  (transmitBegin ((s.setBuffers (encodePacket k c) s.txBuf1).present .buf 1)).setArb .txHeld

/-- ARB_STOP begin (R186): two stop packets as one batch. -/
def stopBegin (c : Channel) (s : State) : State :=
  (transmitBegin ((s.setBuffers (encodePacket 0 c) (encodePacket 0 c)).present .buf 2)).setArb .txStop

/-- ARB_CYCLE (R182): the priority list, `held_key` and `channel` sampled once (R183). -/
def cycleStep (s : State) : StepResult :=
  if s.arbState = .cycle then
    if s.heldKey ≠ 0 then .next (heldBegin s.heldKey s.channel s)
    else if s.stopSent then .next (s.setArb .wait)
    else .next (stopBegin s.channel s)
  else .refused .stepNotEnabled

/-- ARB_FLUSH begin (R190), after the flush cause has been consumed. -/
def flushBegin (s : State) : StepResult :=
  if s.qCount = 0 then .next (s.setArb .cycle)
  else
    match rebuildEntries s.channel s.qCount 0 s.qMem with
    | .error f => .fault f
    | .ok m =>
      .next ((transmitBegin (((s.setLock true).setQueue m s.qCount).present .queue s.qCount)).setArb .txFlush)

/-- ARB_WAIT (R188). With no wake bit set the arbiter is blocked and nothing changes (R181, vector A12) (log 14). -/
def waitStep (s : State) : StepResult :=
  if s.arbState = .wait then
    if s.wakeFlush then flushBegin s.clearWakes
    else if s.wakeContinue then .next (s.clearWakes.setArb .cycle)
    else .next s
  else .refused .stepNotEnabled

/-- The atomic step in which ARB_HELD begins: ARB_CYCLE with a key held (R181, R182, R184) (log 15). -/
def heldStart (s : State) : StepResult :=
  if s.arbState = .cycle ∧ s.heldKey ≠ 0 then .next (heldBegin s.heldKey s.channel s)
  else .refused .stepNotEnabled

/-- The atomic step in which ARB_STOP begins: ARB_CYCLE with no key held and no stop sent (R181, R182, R186) (log 15). -/
def stopStart (s : State) : StepResult :=
  if s.arbState = .cycle ∧ s.heldKey = 0 ∧ s.stopSent = false then .next (stopBegin s.channel s)
  else .refused .stepNotEnabled

/-- The atomic step in which ARB_FLUSH begins: ARB_WAIT that consumes a flush cause (R181, R188, R190) (log 15). -/
def flushStart (s : State) : StepResult :=
  if s.arbState = .wait ∧ s.wakeFlush = true then flushBegin s.clearWakes
  else .refused .stepNotEnabled

/-- ARB_WAIT that acts on the cause continue: no flush cause is pending (R188, R181). -/
def continueStart (s : State) : StepResult :=
  if s.arbState = .wait ∧ s.wakeFlush = false ∧ s.wakeContinue = true then .next (s.clearWakes.setArb .cycle)
  else .refused .stepNotEnabled

/-- The arbiter's next step begins a transmission: ARB_CYCLE with a key held or a stop owed, ARB_WAIT with a flush cause and a
queue that is not empty (R182, R188, R190). -/
def beginsTransmission (s : State) : Bool :=
  match s.arbState with
  | .cycle => s.heldKey != 0 || !s.stopSent
  | .txHeld => false
  | .txStop => false
  | .wait => s.wakeFlush && s.qCount != 0
  | .txFlush => false

/-- ENC_RESET requested on its own: obeyed only where the arbiter begins a transmission, "and nobody else" requests it (R115,
D7, R236), so never while one is outstanding (log 16). -/
def requestReset (s : State) : StepResult :=
  if beginsTransmission s then .next (transmitBegin s)
  else .refused .resetOutsideBegin

/-- The arbiter's step when the environment does nothing: the one that `arb_state` enables (R181). In WAIT with no wake bit it
is blocked and nothing changes (R23). An outstanding transmission that nothing else ends is ended by its timer, with `timeout`
(R194, R240): "every transmission ends" (D24) (log 13, 27). -/
def arbiterStep (s : State) : StepResult :=
  match s.arbState with
  | .cycle => cycleStep s
  | .txHeld => endTransmission .timeout s
  | .txStop => endTransmission .timeout s
  | .wait => waitStep s
  | .txFlush => endTransmission .timeout s

/-! ### The command port (43_commands.md) -/

/-- APPEND (R162): the units that fit are stored in order, the rest dropped with one event, and the flush cause is raised
when the queue is not empty. -/
def appendCommand (payload : List Byte) (s : State) : StepResult :=
  let units := payloadUnits payload
  let room := Config.queueCapacity - s.qCount
  let stored := units.take room
  match writeEntries s.qMem s.qCount stored with
  | .error f => .fault f
  | .ok m =>
    let s1 := s.setQueue m (s.qCount + stored.length)
    let s2 := if room < units.length then s1.raiseDiag (.appendOverflow (units.length - room)) else s1
    .next (if s2.qCount ≠ 0 then s2.raiseFlush else s2)

/-- FLUSH (R165). -/
def flushCommand (s : State) : State :=
  if s.qCount ≠ 0 then s.raiseFlush else s.raiseDiag .flushEmpty

/-- HELDKEY (R167). -/
def heldKeyCommand (b : Byte) (s : State) : State :=
  (s.setHeldKey (payloadKey b)).raiseContinue

/-- SETCHAN (R169). -/
def setChanCommand (b : Byte) (s : State) : State := s.setChannel (payloadChannel b)

/-- The effect of an accepted command. -/
def acceptCommand (c : Command) (s : State) : StepResult :=
  match c with
  | .append payload => appendCommand payload s
  | .flush => .next (flushCommand s)
  | .heldKey b => .next (heldKeyCommand b s)
  | .setChan b => .next (setChanCommand b s)

/-- HELDKEY and SETCHAN are accepted in every state, APPEND and FLUSH only while `q_lock = 0` (R160). -/
def acceptable (c : Command) (s : State) : Bool :=
  match c with
  | .append _ => !s.qLock
  | .flush => !s.qLock
  | .heldKey _ => true
  | .setChan _ => true

/-- A command is issued (R160): accepted at once when nothing waits in front of it and it is acceptable; otherwise it waits
at the port, unchanged, behind those already there (log 12). -/
def issueCommand (c : Command) (s : State) : StepResult :=
  if s.port.isEmpty && acceptable c s then acceptCommand c s
  else .next (s.setPort (s.port ++ [c]))

/-- The oldest waiting command is accepted if it may be; otherwise nothing changes (R160). -/
def acceptWaiting (s : State) : StepResult :=
  match s.port with
  | [] => .next s
  | c :: rest => if acceptable c s then acceptCommand c (s.setPort rest) else .next s

/-- What the block does when the environment does nothing: a waiting command that may be accepted is, otherwise the arbiter
takes its step (log 13). So a flush always completes and an APPEND or FLUSH that waits on it is accepted (R55). -/
def autonomous (s : State) : StepResult :=
  match s.port with
  | [] => arbiterStep s
  | c :: rest => if acceptable c s then acceptCommand c (s.setPort rest) else arbiterStep s

/-! ### The decoder (42_pulse_decoder.md R144) -/

/-- DECODE's scan over the spaces of a capture, with `skip` symbols of the current frame still to consume: a start marker with
16 symbols after it yields a frame and consumes 17 symbols, any other symbol is skipped alone (R144, R145). -/
def scanSpaces (skip : Nat) : List Nat → List Frame
  | [] => []
  | space :: rest =>
    if 0 < skip then scanSpaces (skip - 1) rest
    else if isStartSpace space && decide (16 ≤ rest.length) then
      ⟨assembleBits (rest.take 16), validPacket (assembleBits (rest.take 16))⟩ :: scanSpaces 16 rest
    else scanSpaces 0 rest

/-- `DECODE(S)`: marks are never examined (R140, R144). -/
def decodeCapture (capture : List Symbol) : List Frame :=
  scanSpaces 0 (capture.map fun s => s.space.toNat)

/-- The INVALID_FRAME events of a list of results, in scan order (R144, 60_exceptions.md R225). -/
def invalidFrames (frames : List Frame) : List Diag :=
  (frames.filter fun f => !f.valid).map fun f => .invalidFrame f.packet

end Sys2Proof.Machine
end

