-- ==== Sys2Proof/Machine/Arbiter.lean ====
section
/-! DEFINITION. The Command Arbiter (44_arbiter.md): the step each value of `arb_state` enables, the sub-steps with their
completions, and TRANSMIT. -/

namespace Sys2Proof.Machine

/-- ARBSTATE.CYCLE: the step this value of `arb_state` enables, ARB_CYCLE (R181, R182) (log 7). -/
def execArbStateCycle (s : State) : StepResult := cycleStep s

/-- ARBSTATE.TX_HELD: ARB_HELD completion with the drawn result (R181, R185) (log 7). -/
def execArbStateTxHeld (r : Token) (s : State) : StepResult := heldEnd r s

/-- ARBSTATE.TX_STOP: ARB_STOP completion with the drawn result (R181, R187) (log 7). -/
def execArbStateTxStop (r : Token) (s : State) : StepResult := stopEnd r s

/-- ARBSTATE.WAIT: ARB_WAIT, or blocked (R181, R188) (log 7, 14). -/
def execArbStateWait (s : State) : StepResult := waitStep s

/-- ARBSTATE.TX_FLUSH: ARB_FLUSH completion with the drawn result (R181, R191) (log 7). -/
def execArbStateTxFlush (r : Token) (s : State) : StepResult := flushEnd r s

/-- ARB_HELD: begin (R184) or completion (R185) (log 15). -/
def execArbHeld (part : StepPart) (s : State) : StepResult :=
  match part with
  | .start => heldStart s
  | .complete r => heldEnd r s

/-- ARB_STOP: begin (R186) or completion (R187) (log 15). -/
def execArbStop (part : StepPart) (s : State) : StepResult :=
  match part with
  | .start => stopStart s
  | .complete r => stopEnd r s

/-- ARB_FLUSH: begin (R190) or completion (R191) (log 15). -/
def execArbFlush (part : StepPart) (s : State) : StepResult :=
  match part with
  | .start => flushStart s
  | .complete r => flushEnd r s

/-- ARB_CYCLE (R182). -/
def execArbCycle (s : State) : StepResult := cycleStep s

/-- ARB_WAIT (R188). -/
def execArbWait (s : State) : StepResult := waitStep s

/-- TRANSMIT (R194): its begin, which is ENC_RESET, only while no transmission is outstanding (R195) and where the arbiter begins
one (R115); one DRIVE call of the transmit peripheral; its end with a result and the matching completion step (log 17). -/
def execTransmit (part : TransmitPart) (s : State) : StepResult :=
  match part with
  | .start => if outstanding s then .refused .transmissionOutstanding else requestReset s
  | .drive cap => driveCall cap s
  | .finish r => endTransmission r s

end Sys2Proof.Machine
end

