-- ==== Sys2Proof/Machine/Codes.lean ====
section
/-! DEFINITION. The small codes: the transmission results OUT (30_encoding.md R70, R75 TXRESULT), the diagnostic events DIAG
(R71) and the wake causes WAKE (R72). -/

namespace Sys2Proof.Machine

/-- OUT.done: the outstanding transmission ends with this result; its token is published after a flush, and only then
(44_arbiter.md R194, R198, R185, R187, R191) (log 4). -/
def execOutDone (s : State) : StepResult := endTransmission .done s

/-- OUT.invalid_arg: the outstanding transmission ends with this result; its token is published after a flush, and only then
(44_arbiter.md R194, R198, R185, R187, R191) (log 4). -/
def execOutInvalidArg (s : State) : StepResult := endTransmission .invalidArg s

/-- OUT.timeout: the outstanding transmission ends with this result; its token is published after a flush, and only then
(44_arbiter.md R194, R198, R185, R187, R191) (log 4). -/
def execOutTimeout (s : State) : StepResult := endTransmission .timeout s

/-- OUT.fail: the outstanding transmission ends with this result; its token is published after a flush, and only then
(44_arbiter.md R194, R198, R185, R187, R191) (log 4). -/
def execOutFail (s : State) : StepResult := endTransmission .fail s

/-- OUT.unknown_error: the outstanding transmission ends with this result; its token is published after a flush, and only then
(44_arbiter.md R194, R198, R185, R187, R191) (log 4). -/
def execOutUnknownError (s : State) : StepResult := endTransmission .unknownError s

/-- DIAG.FLUSH_EMPTY: the event is raised (60_exceptions.md R222) (log 5). -/
def execDiagFlushEmpty (s : State) : StepResult := .next (s.raiseDiag .flushEmpty)

/-- DIAG.APPEND_OVERFLOW with the number of units dropped (60_exceptions.md R222, R224) (log 5). -/
def execDiagAppendOverflow (dropped : Nat) (s : State) : StepResult := .next (s.raiseDiag (.appendOverflow dropped))

/-- DIAG.INVALID_FRAME with the 16-bit received value (60_exceptions.md R222, R225) (log 5). -/
def execDiagInvalidFrame (v : Packet) (s : State) : StepResult := .next (s.raiseDiag (.invalidFrame v))

/-- WAKE.continue: the arbiter is woken by this cause, ARB_WAIT with continue pending and flush not (44_arbiter.md R188, the rule
of the table row). The bit itself is set by HELDKEY only (10_state.md R17, R27) (log 6). -/
def execWakeContinue (s : State) : StepResult := continueStart s

/-- WAKE.flush: the arbiter is woken by this cause, ARB_WAIT with flush pending, which performs ARB_FLUSH begin (44_arbiter.md
R188, R190, the rule of the table row). The bit itself is set by APPEND and FLUSH only (10_state.md R17, R27) (log 6). -/
def execWakeFlush (s : State) : StepResult := flushStart s

end Sys2Proof.Machine
end

