-- ==== Sys2Proof/Machine/Commands.lean ====
section
/-! DEFINITION. The inbound commands at the command port (43_commands.md). -/

namespace Sys2Proof.Machine

/-- APPEND(len, B) (R162), with `len` the number of payload bytes. -/
def execAppend (payload : List Byte) (s : State) : StepResult := issueCommand (.append payload) s

/-- FLUSH (R165); a payload, if present, is ignored. -/
def execFlush (_payload : List Byte) (s : State) : StepResult := issueCommand .flush s

/-- HELDKEY(len, B) (R167); refused unless `len = 1` (U3). -/
def execHeldKey (payload : List Byte) (s : State) : StepResult :=
  match payload with
  | [b] => issueCommand (.heldKey b) s
  | _ => .refused .heldKeyLength

/-- SETCHAN(len, B) (R169); refused unless `len = 1` (U4). -/
def execSetChan (payload : List Byte) (s : State) : StepResult :=
  match payload with
  | [b] => issueCommand (.setChan b) s
  | _ => .refused .setChanLength

end Sys2Proof.Machine
end

