-- ==== Sys2Proof/Machine/Decoder.lean ====
section
/-! DEFINITION. The Pulse Decoder (42_pulse_decoder.md): ISSTART, CLASSIFY, DECODE. It holds no state (10_state.md R25). -/

namespace Sys2Proof.Machine

/-- ISSTART(sym) (R141). -/
def execIsStart (sym : Symbol) (s : State) : StepResult := .next (s.returns (.verdict (isStartSpace sym.space.toNat)))

/-- CLASSIFY(sym) (R142). -/
def execClassify (sym : Symbol) (s : State) : StepResult := .next (s.returns (.bit (classifySpace sym.space.toNat)))

/-- DECODE(S) (R144): the frames go to output (d), one INVALID_FRAME event for each that does not validate. -/
def execDecode (capture : List Symbol) (s : State) : StepResult :=
  .next (s.deliver (decodeCapture capture) (invalidFrames (decodeCapture capture)))

end Sys2Proof.Machine
end

