-- ==== Sys2Proof/Machine/Encoder.lean ====
section
/-! DEFINITION. The Pulse Encoder (41_pulse_encoder.md): the symbols of the transmit alphabet, the beats by phase, the batch
presentation, WIREBIT, FRAMESEQ, ENC_RESET, DRIVE and WAVEFORM. -/

namespace Sys2Proof.Machine

/-- SYM_START on the line (30_encoding.md R66, R122, R123) (log 3). -/
def execSymStart (s : State) : StepResult := playSymbol startSymbol s

/-- SYM_BIT0 on the line (30_encoding.md R66, R122, R123) (log 3). -/
def execSymBit0 (s : State) : StepResult := playSymbol bit0Symbol s

/-- SYM_BIT1 on the line (30_encoding.md R66, R122, R123) (log 3). -/
def execSymBit1 (s : State) : StepResult := playSymbol bit1Symbol s

/-- SYM_END on the line (30_encoding.md R66, R122, R123) (log 3). -/
def execSymEnd (s : State) : StepResult := playSymbol endSymbol s

/-- ENCPHASE.Start: the beat that emits SYM_START (R117, R120) (log 8). -/
def execEncPhaseStart (s : State) : StepResult := driveBeat .start s

/-- ENCPHASE.Word: the beat that emits bit-symbol number `enc_bit` (R117, R120) (log 8). -/
def execEncPhaseWord (s : State) : StepResult := driveBeat .word s

/-- ENCPHASE.End: the beat that emits SYM_END (R117, R120) (log 8). -/
def execEncPhaseEnd (s : State) : StepResult := driveBeat .fin s

/-- BATCHSRC.BUF: the current packet read from `tx_buf` (10_state.md R22) (log 9). -/
def execBatchSrcBuf (s : State) : StepResult := readPresented .buf s

/-- BATCHSRC.QUEUE: the current packet read from `q_mem` (10_state.md R22) (log 9). -/
def execBatchSrcQueue (s : State) : StepResult := readPresented .queue s

/-- WIREBIT(p, i) (R111). -/
def execWireBit (p : Packet) (i : BitVec 4) (s : State) : StepResult := .next (s.returns (.bit (wireBit p i.toNat)))

/-- FRAMESEQ(batch) (R113); a batch is not empty (00_scope.md R8, U5). -/
def execFrameSeq (batch : List Packet) (s : State) : StepResult :=
  if batch.isEmpty then .refused .emptyBatch else .next (s.returns (.symbols (frameSeq batch)))

/-- ENC_RESET (R115): the arbiter's request where it begins a transmission, refused everywhere else (log 16). -/
def execEncReset (s : State) : StepResult := requestReset s

/-- DRIVE(cap) (R117). -/
def execDrive (cap : Nat) (s : State) : StepResult := driveCall cap s

/-- WAVEFORM(syms) (R123). -/
def execWaveform (syms : List Symbol) (s : State) : StepResult := .next (s.returns (.waveform (waveform syms)))

end Sys2Proof.Machine
end

