-- ==== Sys2Proof/Machine/Packets.lean ====
section
/-! DEFINITION. The packet rows PKT and the pure functions CHECKSUM, SINGLEKEY, ENCODE, VALIDATE (40_packet_checksum.md). They
"read no state and write none, raise no event and set no flag": each returns its result to its caller (log 2, 30). -/

namespace Sys2Proof.Machine

/-- A packet row of key `k` presented with channel `c` and checksum field `x`: the notation PKT(k, c) of 30_encoding.md R75 is
the value ENCODE(k, c), and the presented word conforms when its checksum is right, since a PKT row fixes singleKey, reserved
and key (R62, R94) (log 2). -/
def packetRow (k : Key) (c : Channel) (x : Nibble) (s : State) : StepResult :=
  .next (s.returns (.row (encodePacket k c) (conforming (packFields (singleKeyOf k) c reservedTx k x))))

/-- PKT.STOP: key 0x0 (30_encoding.md R61, R94). -/
def execPktStop (c : Channel) (x : Nibble) (s : State) : StepResult := packetRow 0x0 c x s

/-- PKT.LB: key 0x1 (30_encoding.md R61, R94). -/
def execPktLb (c : Channel) (x : Nibble) (s : State) : StepResult := packetRow 0x1 c x s

/-- PKT.LF: key 0x2 (30_encoding.md R61, R94). -/
def execPktLf (c : Channel) (x : Nibble) (s : State) : StepResult := packetRow 0x2 c x s

/-- PKT.LB_LF: key 0x3 (30_encoding.md R61, R94). -/
def execPktLbLf (c : Channel) (x : Nibble) (s : State) : StepResult := packetRow 0x3 c x s

/-- PKT.RF: key 0x4 (30_encoding.md R61, R94). -/
def execPktRf (c : Channel) (x : Nibble) (s : State) : StepResult := packetRow 0x4 c x s

/-- PKT.LB_RF: key 0x5 (30_encoding.md R61, R94). -/
def execPktLbRf (c : Channel) (x : Nibble) (s : State) : StepResult := packetRow 0x5 c x s

/-- PKT.LF_RF: key 0x6 (30_encoding.md R61, R94). -/
def execPktLfRf (c : Channel) (x : Nibble) (s : State) : StepResult := packetRow 0x6 c x s

/-- PKT.LB_LF_RF: key 0x7 (30_encoding.md R61, R94). -/
def execPktLbLfRf (c : Channel) (x : Nibble) (s : State) : StepResult := packetRow 0x7 c x s

/-- PKT.RB: key 0x8 (30_encoding.md R61, R94). -/
def execPktRb (c : Channel) (x : Nibble) (s : State) : StepResult := packetRow 0x8 c x s

/-- PKT.LB_RB: key 0x9 (30_encoding.md R61, R94). -/
def execPktLbRb (c : Channel) (x : Nibble) (s : State) : StepResult := packetRow 0x9 c x s

/-- PKT.LF_RB: key 0xA (30_encoding.md R61, R94). -/
def execPktLfRb (c : Channel) (x : Nibble) (s : State) : StepResult := packetRow 0xA c x s

/-- PKT.LB_LF_RB: key 0xB (30_encoding.md R61, R94). -/
def execPktLbLfRb (c : Channel) (x : Nibble) (s : State) : StepResult := packetRow 0xB c x s

/-- PKT.RF_RB: key 0xC (30_encoding.md R61, R94). -/
def execPktRfRb (c : Channel) (x : Nibble) (s : State) : StepResult := packetRow 0xC c x s

/-- PKT.LB_RF_RB: key 0xD (30_encoding.md R61, R94). -/
def execPktLbRfRb (c : Channel) (x : Nibble) (s : State) : StepResult := packetRow 0xD c x s

/-- PKT.LF_RF_RB: key 0xE (30_encoding.md R61, R94). -/
def execPktLfRfRb (c : Channel) (x : Nibble) (s : State) : StepResult := packetRow 0xE c x s

/-- PKT.LB_LF_RF_RB: key 0xF (30_encoding.md R61, R94). -/
def execPktLbLfRfRb (c : Channel) (x : Nibble) (s : State) : StepResult := packetRow 0xF c x s

/-- CHECKSUM(v) (R90). -/
def execChecksum (v : Packet) (s : State) : StepResult := .next (s.returns (.nibble (checksumOf v)))

/-- SINGLEKEY(k) (R92). -/
def execSingleKey (k : Key) (s : State) : StepResult := .next (s.returns (.bit (singleKeyOf k)))

/-- ENCODE(k, c), total (R94). -/
def execEncode (k : Key) (c : Channel) (s : State) : StepResult := .next (s.returns (.packet (encodePacket k c)))

/-- VALIDATE(p); it raises no event (R96). -/
def execValidate (p : Packet) (s : State) : StepResult := .next (s.returns (.verdict (validPacket p)))

end Sys2Proof.Machine
end

