-- ==== Sys2Proof/Machine/Dispatch.lean ====
section
/-! DEFINITION. One arm per constructor of Instr: the meaning of each operation. -/

namespace Sys2Proof.Machine

/-- The meaning of an operation. -/
def exec (i : Instr) (s : State) : Host.Outcome State Fault Refusal :=
  match i with
  | .pktStop c x => Sys2Proof.Machine.execPktStop c x s
  | .pktLb c x => Sys2Proof.Machine.execPktLb c x s
  | .pktLf c x => Sys2Proof.Machine.execPktLf c x s
  | .pktLbLf c x => Sys2Proof.Machine.execPktLbLf c x s
  | .pktRf c x => Sys2Proof.Machine.execPktRf c x s
  | .pktLbRf c x => Sys2Proof.Machine.execPktLbRf c x s
  | .pktLfRf c x => Sys2Proof.Machine.execPktLfRf c x s
  | .pktLbLfRf c x => Sys2Proof.Machine.execPktLbLfRf c x s
  | .pktRb c x => Sys2Proof.Machine.execPktRb c x s
  | .pktLbRb c x => Sys2Proof.Machine.execPktLbRb c x s
  | .pktLfRb c x => Sys2Proof.Machine.execPktLfRb c x s
  | .pktLbLfRb c x => Sys2Proof.Machine.execPktLbLfRb c x s
  | .pktRfRb c x => Sys2Proof.Machine.execPktRfRb c x s
  | .pktLbRfRb c x => Sys2Proof.Machine.execPktLbRfRb c x s
  | .pktLfRfRb c x => Sys2Proof.Machine.execPktLfRfRb c x s
  | .pktLbLfRfRb c x => Sys2Proof.Machine.execPktLbLfRfRb c x s
  | .symStart => Sys2Proof.Machine.execSymStart s
  | .symBit0 => Sys2Proof.Machine.execSymBit0 s
  | .symBit1 => Sys2Proof.Machine.execSymBit1 s
  | .symEnd => Sys2Proof.Machine.execSymEnd s
  | .append payload => Sys2Proof.Machine.execAppend payload s
  | .flush payload => Sys2Proof.Machine.execFlush payload s
  | .heldKey payload => Sys2Proof.Machine.execHeldKey payload s
  | .setChan payload => Sys2Proof.Machine.execSetChan payload s
  | .outDone => Sys2Proof.Machine.execOutDone s
  | .outInvalidArg => Sys2Proof.Machine.execOutInvalidArg s
  | .outTimeout => Sys2Proof.Machine.execOutTimeout s
  | .outFail => Sys2Proof.Machine.execOutFail s
  | .outUnknownError => Sys2Proof.Machine.execOutUnknownError s
  | .diagFlushEmpty => Sys2Proof.Machine.execDiagFlushEmpty s
  | .diagAppendOverflow dropped => Sys2Proof.Machine.execDiagAppendOverflow dropped s
  | .diagInvalidFrame v => Sys2Proof.Machine.execDiagInvalidFrame v s
  | .wakeContinue => Sys2Proof.Machine.execWakeContinue s
  | .wakeFlush => Sys2Proof.Machine.execWakeFlush s
  | .arbStateCycle => Sys2Proof.Machine.execArbStateCycle s
  | .arbStateTxHeld r => Sys2Proof.Machine.execArbStateTxHeld r s
  | .arbStateTxStop r => Sys2Proof.Machine.execArbStateTxStop r s
  | .arbStateWait => Sys2Proof.Machine.execArbStateWait s
  | .arbStateTxFlush r => Sys2Proof.Machine.execArbStateTxFlush r s
  | .encPhaseStart => Sys2Proof.Machine.execEncPhaseStart s
  | .encPhaseWord => Sys2Proof.Machine.execEncPhaseWord s
  | .encPhaseEnd => Sys2Proof.Machine.execEncPhaseEnd s
  | .batchSrcBuf => Sys2Proof.Machine.execBatchSrcBuf s
  | .batchSrcQueue => Sys2Proof.Machine.execBatchSrcQueue s
  | .checksum v => Sys2Proof.Machine.execChecksum v s
  | .singleKey k => Sys2Proof.Machine.execSingleKey k s
  | .encode k c => Sys2Proof.Machine.execEncode k c s
  | .validate p => Sys2Proof.Machine.execValidate p s
  | .wireBit p n => Sys2Proof.Machine.execWireBit p n s
  | .frameSeq batch => Sys2Proof.Machine.execFrameSeq batch s
  | .encReset => Sys2Proof.Machine.execEncReset s
  | .drive cap => Sys2Proof.Machine.execDrive cap s
  | .waveform syms => Sys2Proof.Machine.execWaveform syms s
  | .isStart sym => Sys2Proof.Machine.execIsStart sym s
  | .classify sym => Sys2Proof.Machine.execClassify sym s
  | .decode capture => Sys2Proof.Machine.execDecode capture s
  | .arbHeld part => Sys2Proof.Machine.execArbHeld part s
  | .arbStop part => Sys2Proof.Machine.execArbStop part s
  | .arbFlush part => Sys2Proof.Machine.execArbFlush part s
  | .arbCycle => Sys2Proof.Machine.execArbCycle s
  | .arbWait => Sys2Proof.Machine.execArbWait s
  | .transmit part => Sys2Proof.Machine.execTransmit part s

end Sys2Proof.Machine
end

