-- ==== Sys2Proof/Machine/Step.lean ====
section
/-! DEFINITION. One step of the block with its environment: the next event of the inbox, or the block's own move when the
environment does nothing. -/

namespace Sys2Proof.Machine

/-- One step (20_memory.md R52, R53): the environment's next event is taken from the inbox and performed whole. A request is
decoded and executed; bytes that are no row of their format are refused. With no event left the block moves on its own. -/
def step (s : State) : Host.Outcome State Fault Refusal :=
  match s.inbox with
  | [] => autonomous s
  | .accept :: rest => acceptWaiting (s.setInbox rest)
  | .request r :: rest =>
    match decode r with
    | none => .refused .badEncoding
    | some i => exec i (s.setInbox rest)

/-- The state with a word of the opcode table presented as the environment's next operation, so that the very next step runs
it. It stands for the environment (a peripheral, the Transport Adapter) presenting an operation (log 1). -/
def State.withFetchWord (s : State) (nbits w : Nat) : State :=
  s.setInbox (.request (tableRequest nbits w) :: s.inbox)

end Sys2Proof.Machine
end

