-- ==== Sys2Proof/Safety.lean ====
section
/-! DEFINITION. The terms the claims use: the invariant of the block, the batch a state presents, the cursor's position, a run
of DRIVE calls, and the reference sequences of the receive side. -/

namespace Sys2Proof.Safety

open Sys2Proof.Machine

/-- `ps` is the batch that `s` presents: `N = batch_n` packets, packet `i` read as `batch[i]` (10_state.md R22). -/
def BatchIs (s : State) (ps : List Packet) : Prop :=
  ps.length = s.batchN ∧ ∀ (i : Nat) (h : i < ps.length), readBatch s i = .ok ps[i]

/-- `es` are the valid entries of the queue, oldest first (10_state.md R11, R12). -/
def QueueIs (s : State) (es : List Packet) : Prop :=
  es.length = s.qCount ∧ ∀ (i : Nat) (h : i < es.length), readEntry s.qMem i = .ok es[i]

/-- The position of the cursor in the batch: the number of symbols already emitted (41_pulse_encoder.md R114). -/
def cursorPos (s : State) : Nat :=
  18 * s.encIndex +
    match s.encPhase with
    | .start => 0
    | .word => 1 + s.encBit
    | .fin => 17

/-- The cursor is a legal position (R114): `enc_bit` is 0 outside the Word phase and at most 15 in it. -/
def CursorLegal (s : State) : Prop :=
  s.encBit ≤ 15 ∧ (s.encPhase ≠ .word → s.encBit = 0)

/-- The invariant of the block: what 10_state.md and 41_pulse_encoder.md R114 say holds "at every step", the canonical form of
the memory, and that the packets of an outstanding transmission are conforming (30_encoding.md R62, R63). -/
structure BlockInv (s : State) : Prop where
  /-- The memory is in its canonical form. -/
  memory_wf : s.qMem.wf
  /-- `0 <= q_count <= 128` (R12). -/
  count_le : s.qCount ≤ 128
  /-- Every valid entry has been written (R11). -/
  entries_written : ∀ i, i < s.qCount → ∃ p, readEntry s.qMem i = .ok p
  /-- `q_lock = 1` exactly when `arb_state = TX_FLUSH` (R13). -/
  lock_iff : s.qLock = true ↔ s.arbState = .txFlush
  /-- `enc_bit` is in 0..15 and 0 outside the Word phase (R20, R114). -/
  cursor_legal : CursorLegal s
  /-- `enc_index` is in 0..127 (R19). -/
  index_lt : s.encIndex < 128
  /-- A completed batch leaves the cursor at Start/0 (R117). -/
  done_at_start : s.encDone = true → s.encPhase = .start ∧ s.encIndex = 0
  /-- `batch_n` is in 0..128 (R22). -/
  batch_le : s.batchN ≤ 128
  /-- Every packet of the presented batch can be read (R22). -/
  batch_readable : ∀ i, i < s.batchN → ∃ p, readBatch s i = .ok p
  /-- `enc_index < batch_n` while a transmission is outstanding and not complete (R114). -/
  index_in_batch : outstanding s = true → s.encDone = false → s.encIndex < s.batchN
  /-- TX_HELD sends one packet from `tx_buf` (R184). -/
  held_batch : s.arbState = .txHeld → s.batchSrc = .buf ∧ s.batchN = 1
  /-- TX_STOP sends two packets from `tx_buf` (R186). -/
  stop_batch : s.arbState = .txStop → s.batchSrc = .buf ∧ s.batchN = 2
  /-- TX_FLUSH sends the whole queue, which is not empty (R190). -/
  flush_batch : s.arbState = .txFlush → s.batchSrc = .queue ∧ s.batchN = s.qCount ∧ 0 < s.qCount
  /-- The packets in flight are conforming (R62, R63). -/
  batch_conforming : outstanding s = true → ∀ i p, readBatch s i = .ok p → conforming p = true
  /-- Between transmissions nothing waits to be played (R194). -/
  pending_empty : outstanding s = false → s.txPending = []

/-- The DRIVE calls of a transmission, one for each capacity, stopping at the first that is not answered (R118). -/
def driveCalls : List Nat → State → StepResult
  | [], s => .next s
  | cap :: rest, s =>
    match exec (.drive cap) s with
    | .next s' => driveCalls rest s'
    | .fault f => .fault f
    | .refused r => .refused r

/-- Steps of the block in succession, stopping at the first that is not answered. -/
def stepsFrom : Nat → State → StepResult
  | 0, s => .next s
  | n + 1, s =>
    match step s with
    | .next s' => stepsFrom n s'
    | .fault f => .fault f
    | .refused r => .refused r

/-- The arbiter's next step begins a transmission (44_arbiter.md R181, R182, R188, R190). -/
def BeginEnabled (s : State) : Prop :=
  (s.arbState = .cycle ∧ (s.heldKey ≠ 0 ∨ s.stopSent = false)) ∨
  (s.arbState = .wait ∧ s.wakeFlush = true ∧ s.qCount ≠ 0)

/-- An operation that calls DRIVE: DRIVE, TRANSMIT's call, and the ENCPHASE rows (41_pulse_encoder.md R117, R120, R194). -/
def CallsDrive (i : Instr) : Prop :=
  (∃ cap, i = .drive cap ∨ i = .transmit (.drive cap)) ∨ i ∈ [Instr.encPhaseStart, .encPhaseWord, .encPhaseEnd]

/-- The number of symbols of the batch emitted so far: all of them once `enc_done = 1` (R114, R117). -/
def emitted (s : State) : Nat := if s.encDone = true then 18 * s.batchN else cursorPos s

/-- During the transmission of the batch `ps`, that began when the line had carried `before`: the line carries the first `k`
symbols of `FRAMESEQ(ps)` since then, and the other symbols emitted so far wait to be played (44_arbiter.md R194). -/
def LineCarries (before : List Segment) (ps : List Packet) (s : State) : Prop :=
  ∃ k, k ≤ emitted s ∧ s.line = before ++ waveform ((frameSeq ps).take k) ∧
    s.txPending = ((frameSeq ps).take (emitted s)).drop k

/-- The symbols the transmit alphabet has (30_encoding.md R66). -/
def transmitAlphabet : List Symbol := [startSymbol, bit0Symbol, bit1Symbol, endSymbol]

/-- `NAT(v)`: Start, the bits of `v` from bit 15 down to bit 0, End (42_pulse_decoder.md R147). -/
def naturalFrame (v : Packet) : List Symbol :=
  startSymbol :: ((List.range 16).map fun i => bitSym (v.getLsbD (15 - i))) ++ [endSymbol]

/-- The number of ones of a 16-bit value (41_pulse_encoder.md R124). -/
def popcount (p : Packet) : Nat := ((List.range 16).filter fun i => p.getLsbD i).length

/-- The PKT row of a key (30_encoding.md R61), for statements about all sixteen at once. -/
def pktOfKey (k : Key) (c : Channel) (x : Nibble) : Instr :=
  match k.toNat with
  | 0 => .pktStop c x
  | 1 => .pktLb c x
  | 2 => .pktLf c x
  | 3 => .pktLbLf c x
  | 4 => .pktRf c x
  | 5 => .pktLbRf c x
  | 6 => .pktLfRf c x
  | 7 => .pktLbLfRf c x
  | 8 => .pktRb c x
  | 9 => .pktLbRb c x
  | 10 => .pktLfRb c x
  | 11 => .pktLbLfRb c x
  | 12 => .pktRfRb c x
  | 13 => .pktLbRfRb c x
  | 14 => .pktLfRfRb c x
  | _ => .pktLbLfRfRb c x

/-- The operation whose transmission result is `r` (30_encoding.md R70, R75). -/
def resultInstr : Token → Instr
  | .done => .outDone
  | .invalidArg => .outInvalidArg
  | .timeout => .outTimeout
  | .fail => .outFail
  | .unknownError => .outUnknownError

/-- The transitions of `arb_state` that a step may take (44_arbiter.md R181); a step of another agent, or a blocked arbiter,
leaves it as it is. -/
def arbEdge (a b : ArbState) : Prop :=
  a = b ∨ (a, b) ∈ [(ArbState.cycle, ArbState.txHeld), (.cycle, .txStop), (.cycle, .wait), (.txHeld, .cycle),
    (.txStop, .cycle), (.wait, .cycle), (.wait, .txFlush), (.txFlush, .cycle)]

/-- The operation that issues a command (30_encoding.md R69). -/
def commandInstr : Command → Instr
  | .append payload => .append payload
  | .flush => .flush []
  | .heldKey b => .heldKey [b]
  | .setChan b => .setChan [b]

/-- The next state of a result, changed; a fault or a refusal stays. -/
def mapNext (f : State → State) : StepResult → StepResult
  | .next s => .next (f s)
  | .fault r => .fault r
  | .refused r => .refused r

/-- `enc_phase` Start, `enc_index` 0, `enc_bit` 0: "Start/0". -/
def AtStart (s : State) : Prop := s.encPhase = .start ∧ s.encIndex = 0 ∧ s.encBit = 0

end Sys2Proof.Safety
end

