-- ==== Sys2Proof/Certificates/Slice0/Obligations.lean ====
section
/-! DEFINITION. The statements for the provers. Each says which rule of spec/ it formalises; a statement that rests on a
choice of the model names the log entry. -/

open Sys2Proof Sys2Proof.Machine Sys2Proof.Safety

/-! ### Encodings -/

/-- Decoding the request an operation is encoded as gives the operation back, for every row of the opcode table with every
operand value, well-formed or not (30_encoding.md R60, R65, R69 to R73; the framing of the operands without bits is the
model's, log 10). -/
def Obligations.DecodeEncodeEveryOperation : Prop :=
  ∀ i : Instr, decode (encode i) = some i

/-- On the interfaces of the coded formats (PKT, SYM, CMD, OUT, WAKE, ARBSTATE, ENCPHASE, BATCHSRC), a decoded request is exactly
the encoding of what it decodes to: no bit is dropped. The codes are those of 30_encoding.md R60, R65, R69, R70, R72, R73; that
a request is bytes, a value laid out low byte first, is the model's framing (log 10), and so is the byte of the drawn result
behind an ARBSTATE completion code, which R73 does not give (log 7, 10). -/
def Obligations.EncodeDecodeCodedFormats : Prop :=
  ∀ (r : Request) (i : Instr),
    r.iface ∈ [Iface.pkt, .sym, .cmd, .out, .wake, .arbState, .encPhase, .batchSrc] →
    decode r = some i → encode i = r

/-- Words written out from the encodings of the spec decode to the operations they stand for: the packet 0x8124, the stop
packet of channel 1, a symbol word, and four command words. -/
def Obligations.SpecWordsDecode : Prop :=
  decodeTableWord 16 0x8124 = some (.pktLf 0 4) ∧
  decodeTableWord 16 0x110F = some (.pktStop 1 0xF) ∧
  decodeTableWord 32 0x009E03B6 = some .symStart ∧
  decode ⟨.cmd, [0x00, 0x24, 0x81, 0x0E, 0x01]⟩ = some (.append [0x24, 0x81, 0x0E, 0x01]) ∧
  decode ⟨.cmd, [0x01]⟩ = some (.flush []) ∧
  decode ⟨.cmd, [0x02, 0x02]⟩ = some (.heldKey [0x02]) ∧
  decode ⟨.cmd, [0x03, 0x01]⟩ = some (.setChan [0x01])

/-- The codes that never occur are refused: OUT 5 to 7, DIAG 3, ARBSTATE 5 to 7, ENCPHASE 3, and every value above
(30_encoding.md R70, R71, R73). -/
def Obligations.CodesThatNeverOccurAreRefused : Prop :=
  (∀ b : Byte, 5 ≤ b.toNat → decode ⟨.out, [b]⟩ = none) ∧
  (∀ (b : Byte) (info : List Byte), 3 ≤ b.toNat → decode ⟨.diag, b :: info⟩ = none) ∧
  (∀ b r : Byte, 5 ≤ b.toNat → decode ⟨.arbState, [b]⟩ = none ∧ decode ⟨.arbState, [b, r]⟩ = none) ∧
  (∀ b : Byte, 3 ≤ b.toNat → decode ⟨.encPhase, [b]⟩ = none)

/-! ### The step -/

/-- When the environment's next event is a request that decodes to an operation, well-formed or not, the step is that
operation's meaning, with the event taken from the inbox (log 1). -/
def Obligations.StepRunsDecodedOperation : Prop :=
  ∀ (s : State) (r : Request) (rest : List Event) (i : Instr),
    s.inbox = .request r :: rest → decode r = some i → step s = exec i { s with inbox := rest }

/-- What the step does where it runs no decoded operation. Undecodable bytes are refused. When the environment does nothing, a
waiting command that may be accepted has the effect it would have had when issued; else the arbiter takes the step its state
enables (44_arbiter.md R181), and a transmission that is outstanding ends with `timeout` (R194, 60_exceptions.md R240). So every
transmission ends, at the latest when the waiting commands have been accepted ("every transmission ends after a finite time",
R194). The order of acceptance and step, and that no event means that nothing else ends the transmission, are the model's (log
13, 14, 27). -/
def Obligations.StepWithoutDecodedOperation : Prop :=
  (∀ (s : State) (r : Request) (rest : List Event),
    s.inbox = .request r :: rest → decode r = none → step s = .refused .badEncoding) ∧
  (∀ (s : State) (c : Command) (rest : List Command), s.inbox = [] → s.port = c :: rest → acceptable c s = true →
    step s = mapNext (fun t => { t with port := rest }) (exec (commandInstr c) { s with port := [] })) ∧
  (∀ s : State, s.inbox = [] → (∀ c rest, s.port = c :: rest → acceptable c s = false) →
    (s.arbState = .cycle → step s = exec .arbCycle s) ∧
    (s.arbState = .wait → step s = exec .arbWait s) ∧
    (outstanding s = true → step s = exec .outTimeout s)) ∧
  (∀ s : State, s.inbox = [] → outstanding s = true →
    ∃ (n : Nat) (t : State), n ≤ s.port.length + 1 ∧ stepsFrom n s = .next t ∧ outstanding t = false)

/-- The oldest waiting command, when it may be accepted, has the effect it would have had with no command in front of it;
the commands behind it stay. While it may not be accepted nothing changes (43_commands.md R160; the event `accept` is the
model's, log 12, 13). -/
def Obligations.WaitingCommandIsAccepted : Prop :=
  ∀ (s : State) (c : Command) (rest : List Command) (l : List Event),
    s.inbox = .accept :: l → s.port = c :: rest →
    (acceptable c s = true →
      step s = mapNext (fun t => { t with port := rest })
        (exec (commandInstr c) { s with inbox := l, port := [] })) ∧
    (acceptable c s = false → step s = .next { s with inbox := l })

/-- The first behaviour after reset: no key and `stop_sent = 1`, so the arbiter goes to WAIT and stays there, and no output
appears (70_reset_and_hazards.md R253, an inference the spec marks "derived"; that the block moves on its own when no event
waits is the model's, log 13, 14). -/
def Obligations.FirstStepsAfterReset : Prop :=
  step State.reset = .next { State.reset with arbState := .wait } ∧
  step { State.reset with arbState := .wait } = .next { State.reset with arbState := .wait }

/-! ### Reset and the invariant -/

/-- The reset value of every element the spec gives one (10_state.md R28). -/
def Obligations.ResetStateValues : Prop :=
  State.reset.qCount = 0 ∧ State.reset.qLock = false ∧ State.reset.heldKey = 0 ∧ State.reset.stopSent = true ∧
  State.reset.channel = Config.channelDefault ∧ State.reset.wakeContinue = false ∧ State.reset.wakeFlush = false ∧
  State.reset.encPhase = .start ∧ State.reset.encIndex = 0 ∧ State.reset.encBit = 0 ∧ State.reset.encTotal = 0 ∧
  State.reset.encDone = false ∧ State.reset.batchSrc = .buf ∧ State.reset.batchN = 0 ∧ State.reset.arbState = .cycle

/-- The invariant of the block holds after reset. -/
def Obligations.InvariantHoldsAtReset : Prop := BlockInv State.reset

/-- Every step keeps the invariant of the block, from every state that meets it: the canonical memory, the ranges of the
counters (R12, R19, R20, R22), the lock (R13), the cursor (R114), the batch of an outstanding transmission (R184, R186,
R190) and the conformance of the packets in flight (R62). -/
def Obligations.EveryStepKeepsInvariant : Prop :=
  ∀ s t : State, BlockInv s → step s = .next t → BlockInv t

/-- "The block never stops, traps, halts or aborts on any input" (60_exceptions.md R220): from a state that meets the
invariant no step faults. (A refused input has no meaning and is not given a step, R228.) -/
def Obligations.NoFaultUnderInvariant : Prop :=
  ∀ (s : State) (f : Fault), BlockInv s → step s ≠ .fault f

/-! ### Packets -/

/-- CHECKSUM (40_packet_checksum.md R90): its value, that bits 3:0 never enter, and that nothing but the returned value
changes. -/
def Obligations.ChecksumResult : Prop :=
  ∀ (v : Packet) (s : State),
    exec (.checksum v) s = .next { s with values := s.values ++ [.nibble
      (0xF#4 ^^^ v.extractLsb' 12 4 ^^^ v.extractLsb' 8 4 ^^^ v.extractLsb' 4 4)] } ∧
    exec (.checksum (v &&& 0xFFF0#16)) s = exec (.checksum v) s

/-- SINGLEKEY (40_packet_checksum.md R92): 1 exactly for the four single keys, and nothing but the returned value changes.
-/
def Obligations.SingleKeyResult : Prop :=
  ∀ (k : Key) (s : State),
    exec (.singleKey k) s = .next { s with values := s.values ++ [.bit (decide (k = 1 ∨ k = 2 ∨ k = 4 ∨ k = 8))] }

/-- ENCODE (40_packet_checksum.md R94): total, and the packet it returns is `u OR CHECKSUM(u)` with `u = {SINGLEKEY(k), c,
0x1, k, 0x0}`. -/
def Obligations.EncodeResult : Prop :=
  ∀ (k : Key) (c : Channel) (s : State),
    let u : BitVec 16 := BitVec.ofBool (decide (k = 1 ∨ k = 2 ∨ k = 4 ∨ k = 8)) ++ c ++ 0x1#4 ++ k ++ 0x0#4
    let ck : BitVec 4 := 0xF#4 ^^^ u.extractLsb' 12 4 ^^^ u.extractLsb' 8 4 ^^^ u.extractLsb' 4 4
    exec (.encode k c) s = .next { s with values := s.values ++ [.packet (u ||| ck.setWidth 16)] }

/-- The properties of ENCODE (40_packet_checksum.md R95, an inference the spec marks "derived"): conforming, validating, key
and channel read back, the closed form of the checksum, injective. -/
def Obligations.EncodeIsConforming : Prop :=
  (∀ (k : Key) (c : Channel),
    conforming (encodePacket k c) = true ∧ validPacket (encodePacket k c) = true ∧
    keyField (encodePacket k c) = k ∧ chanField (encodePacket k c) = c ∧
    ckField (encodePacket k c) = 0xE#4 ^^^ (BitVec.ofBool (singleKeyOf k) ++ c) ^^^ k) ∧
  (∀ (k k' : Key) (c c' : Channel), encodePacket k c = encodePacket k' c' → k = k' ∧ c = c')

/-- VALIDATE (40_packet_checksum.md R96): the stored checksum against the recomputed one, nothing else, and no event. -/
def Obligations.ValidateResult : Prop :=
  ∀ (p : Packet) (s : State),
    exec (.validate p) s = .next { s with values := s.values ++ [.verdict (decide
      (p.extractLsb' 0 4 = 0xF#4 ^^^ p.extractLsb' 12 4 ^^^ p.extractLsb' 8 4 ^^^ p.extractLsb' 4 4))] }

/-- The laws of VALIDATE (40_packet_checksum.md R97 (a), (c), (d), (e), an inference the spec marks "derived"): it holds
exactly when the four nibbles XOR to 0xF, every single-bit flip of a validating value is detected, flipping one bit position
in two different nibbles is not, and a byte exchange never changes the verdict. -/
def Obligations.ValidateLaws : Prop :=
  (∀ p : Packet, validPacket p = true ↔
    p.extractLsb' 12 4 ^^^ p.extractLsb' 8 4 ^^^ p.extractLsb' 4 4 ^^^ p.extractLsb' 0 4 = 0xF#4) ∧
  (∀ (p : Packet) (i : Nat), i < 16 → validPacket p = true → validPacket (p ^^^ (1#16 <<< i)) = false) ∧
  (∀ (p : Packet) (a b j : Nat), a < 4 → b < 4 → a ≠ b → j < 4 → validPacket p = true →
    validPacket (p ^^^ (1#16 <<< (4 * a + j)) ^^^ (1#16 <<< (4 * b + j))) = true) ∧
  (∀ p : Packet, validPacket (swapBytes p) = validPacket p)

/-- The sixteen PKT rows: a packet row of key `k` with channel `c` returns the value ENCODE(k, c), and whether the presented
checksum field makes the word conforming (30_encoding.md R62, R75; that a row, run as an operation, means this is the
model's choice, log 2). -/
def Obligations.PacketRowsResult : Prop :=
  ∀ (k : Key) (c : Channel) (x : Nibble) (s : State),
    exec (pktOfKey k c x) s = .next { s with values := s.values ++
      [.row (encodePacket k c) (decide (x = ckField (encodePacket k c)))] }

/-! ### The encoder's pure functions -/

/-- WIREBIT (41_pulse_encoder.md R111): the low byte first, its bit 7 first, then the high byte, its bit 15 first. -/
def Obligations.WireBitResult : Prop :=
  ∀ (p : Packet) (i : BitVec 4) (s : State),
    exec (.wireBit p i) s = .next { s with values := s.values ++
      [.bit (if i.toNat ≤ 7 then p.getLsbD (7 - i.toNat) else p.getLsbD (23 - i.toNat))] }

/-- FRAMESEQ (41_pulse_encoder.md R113): 18 symbols for each packet, nothing between two frames, and each symbol by its
number (the numbering is an inference the spec marks "derived"); a batch of zero packets is refused (R8,
93_implementation_defined.md U5). -/
def Obligations.FrameSeqResult : Prop :=
  (∀ (ps : List Packet) (s : State), ps ≠ [] →
    ∃ out, exec (.frameSeq ps) s = .next { s with values := s.values ++ [.symbols out] } ∧
      out.length = 18 * ps.length ∧
      ∀ (n : Nat) (p : Packet), ps[n / 18]? = some p →
        out[n]? = some (if n % 18 = 0 then ⟨158, 950⟩ else if n % 18 = 17 then ⟨158, 30000⟩
          else if wireBit p (n % 18 - 1) then ⟨158, 553⟩ else ⟨158, 263⟩)) ∧
  (∀ s : State, exec (.frameSeq []) s = .refused .emptyBatch)

/-- WAVEFORM (41_pulse_encoder.md R123): every symbol is the line active for its mark, then idle for its space. -/
def Obligations.WaveformResult : Prop :=
  ∀ (syms : List Symbol) (s : State),
    exec (.waveform syms) s = .next { s with values := s.values ++
      [.waveform (syms.flatMap fun y => [⟨.active, y.mark⟩, ⟨.idle, y.space⟩])] }

/-- The duration of a frame (41_pulse_encoder.md R124, an inference the spec marks "derived"): 38002 time units and 290 more
for every one of the packet. -/
def Obligations.FrameDuration : Prop :=
  ∀ p : Packet, totalDuration (frameOf p) = 38002 + 290 * popcount p

/-! ### The encoder's cursor -/

/-- ENC_RESET (41_pulse_encoder.md R115): Start/0, `enc_bit` 0, `enc_done` cleared, and nothing else changes. Only the arbiter
requests it, where it begins a transmission, "and nobody else" (R115, 60_exceptions.md R236), so a request anywhere else, and
always while a transmission is outstanding, is refused. That the row may be run on its own in the states whose next arbiter
step begins a transmission is the model's choice (log 16). -/
def Obligations.EncResetResult : Prop :=
  ∀ s : State,
    (BeginEnabled s → exec .encReset s = .next { s with encPhase := .start, encIndex := 0, encBit := 0, encDone := false }) ∧
    (¬ BeginEnabled s → exec .encReset s = .refused .resetOutsideBegin) ∧
    (outstanding s = true → exec .encReset s = .refused .resetOutsideBegin)

/-- The closed form of DRIVE (41_pulse_encoder.md R117, "In closed form … [derived]"): it returns `FRAMESEQ(batch)[POS ..
min(POS + cap, L) - 1]`, reports completion exactly when `POS + cap >= L`, leaves the cursor at `POS + cap` or at Start/0
with `enc_done = 1` and `enc_total` grown by N, and changes nothing else; TRANSMIT's DRIVE call is the same operation (R194;
the parts of the TRANSMIT row are the model's framing, log 17). -/
def Obligations.DriveClosedForm : Prop :=
  ∀ (s : State) (ps : List Packet) (cap : Nat),
    outstanding s = true → s.encDone = false → BatchIs s ps → CursorLegal s → s.encIndex < ps.length →
    exec (.transmit (.drive cap)) s = exec (.drive cap) s ∧
    ∃ t : State, exec (.drive cap) s = .next t ∧
      t.symbols = s.symbols ++ ((frameSeq ps).drop (cursorPos s)).take cap ∧
      t.txPending = s.txPending ++ ((frameSeq ps).drop (cursorPos s)).take cap ∧
      t.values = s.values ++ [.driven (((frameSeq ps).drop (cursorPos s)).take cap)
        (decide (18 * ps.length ≤ cursorPos s + cap))] ∧
      (cursorPos s + cap < 18 * ps.length →
        cursorPos t = cursorPos s + cap ∧ CursorLegal t ∧ t.encDone = false ∧ t.encTotal = s.encTotal) ∧
      (18 * ps.length ≤ cursorPos s + cap →
        AtStart t ∧ t.encDone = true ∧ t.encTotal = s.encTotal + BitVec.ofNat 32 ps.length) ∧
      t = { s with
        symbols := t.symbols, txPending := t.txPending, values := t.values, encPhase := t.encPhase,
        encIndex := t.encIndex, encBit := t.encBit, encTotal := t.encTotal, encDone := t.encDone }

/-- DRIVE has no meaning outside a transmission, after completion, or for a batch of zero packets (41_pulse_encoder.md R117,
60_exceptions.md R228). -/
def Obligations.DriveRefusals : Prop :=
  ∀ (s : State) (cap : Nat),
    (outstanding s = false → exec (.drive cap) s = .refused .driveOutsideTransmission) ∧
    (outstanding s = true → s.encDone = true → exec (.drive cap) s = .refused .driveAfterCompletion) ∧
    (outstanding s = true → s.encDone = false → s.batchN = 0 → exec (.drive cap) s = .refused .emptyBatch)

/-- The resumability theorem (41_pulse_encoder.md R118, an inference the spec marks "derived"): whatever the capacities, the
DRIVE calls up to the one in which their sum reaches `18*N` return together `FRAMESEQ(batch)`, only the last of them reports
completion, `enc_total` grows by N once, and the cursor ends at Start/0. -/
def Obligations.DriveResumability : Prop :=
  ∀ (s : State) (ps : List Packet) (caps : List Nat) (last : Nat),
    outstanding s = true → s.encDone = false → AtStart s → BatchIs s ps → ps ≠ [] →
    caps.sum < 18 * ps.length → 18 * ps.length ≤ caps.sum + last →
    ∃ (t : State) (outs : List (List Symbol)),
      driveCalls (caps ++ [last]) s = .next t ∧
      outs.length = caps.length + 1 ∧ outs.flatten = frameSeq ps ∧
      t.values = s.values ++ List.zipWith Value.driven outs (List.replicate caps.length false ++ [true]) ∧
      t.symbols = s.symbols ++ frameSeq ps ∧
      t.encTotal = s.encTotal + BitVec.ofNat 32 ps.length ∧ AtStart t ∧ t.encDone = true

/-- The beats of the three ENCPHASE rows (41_pulse_encoder.md R117, R120): each is one round of DRIVE's loop in its phase.
That a phase row, run as an operation, is its beat is the model's reading (log 8). -/
def Obligations.EncoderBeats : Prop :=
  ∀ (s : State) (p : Packet), outstanding s = true → s.encDone = false → readBatch s s.encIndex = .ok p →
    (s.encPhase = .start → exec .encPhaseStart s = .next { s with
      encPhase := .word, encBit := 0, symbols := s.symbols ++ [⟨158, 950⟩],
      txPending := s.txPending ++ [⟨158, 950⟩], values := s.values ++ [.driven [⟨158, 950⟩] false] }) ∧
    (s.encPhase = .word → exec .encPhaseWord s = .next { s with
      encPhase := (if s.encBit = 15 then .fin else .word), encBit := (if s.encBit = 15 then 0 else s.encBit + 1),
      symbols := s.symbols ++ [bitSym (wireBit p s.encBit)],
      txPending := s.txPending ++ [bitSym (wireBit p s.encBit)],
      values := s.values ++ [.driven [bitSym (wireBit p s.encBit)] false] }) ∧
    (s.encPhase = .fin → s.encIndex + 1 ≠ s.batchN → exec .encPhaseEnd s = .next { s with
      encPhase := .start, encIndex := s.encIndex + 1, symbols := s.symbols ++ [⟨158, 30000⟩],
      txPending := s.txPending ++ [⟨158, 30000⟩], values := s.values ++ [.driven [⟨158, 30000⟩] false] }) ∧
    (s.encPhase = .fin → s.encIndex + 1 = s.batchN → exec .encPhaseEnd s = .next { s with
      encPhase := .start, encIndex := 0, encTotal := s.encTotal + BitVec.ofNat 32 s.batchN, encDone := true,
      symbols := s.symbols ++ [⟨158, 30000⟩], txPending := s.txPending ++ [⟨158, 30000⟩],
      values := s.values ++ [.driven [⟨158, 30000⟩] true] })

/-- The reads of the current packet by the two BATCHSRC rows (10_state.md R22): `tx_buf[enc_index]` or `q_mem[enc_index]`, where
DRIVE would read it. With no transmission outstanding, a complete batch or no packet at `enc_index` both rows are refused, so
no entry of the queue is read that no rule reads (R11). That a source row, run as an operation, is this read, and where it may
be run, is the model's reading (log 9). -/
def Obligations.BatchSourceReads : Prop :=
  (∀ s : State, outstanding s = false ∨ s.encDone = true ∨ s.batchN ≤ s.encIndex →
    exec .batchSrcBuf s = .refused .notPresented ∧ exec .batchSrcQueue s = .refused .notPresented) ∧
  ∀ s : State, outstanding s = true → s.encDone = false → s.encIndex < s.batchN →
    (s.batchSrc = .buf → s.encIndex = 0 →
      exec .batchSrcBuf s = .next { s with values := s.values ++ [.packet s.txBuf0] }) ∧
    (s.batchSrc = .buf → s.encIndex = 1 →
      exec .batchSrcBuf s = .next { s with values := s.values ++ [.packet s.txBuf1] }) ∧
    (∀ p, s.batchSrc = .queue → readEntry s.qMem s.encIndex = .ok p →
      exec .batchSrcQueue s = .next { s with values := s.values ++ [.packet p] }) ∧
    (s.batchSrc = .buf → exec .batchSrcQueue s = .refused .notPresented) ∧
    (s.batchSrc = .queue → exec .batchSrcBuf s = .refused .notPresented)

/-- The four SYM rows: the next symbol handed over is played, active for its mark and then idle for its space, in the order
DRIVE returned them; any other symbol is refused (41_pulse_encoder.md R122, R123, 44_arbiter.md R194). That a symbol row,
run as an operation, is the peripheral playing it is the model's reading (log 3). -/
def Obligations.SymbolsArePlayedInOrder : Prop :=
  (∀ (s : State) (i : Instr) (y : Symbol) (rest : List Symbol),
    (i, y) ∈ [(Instr.symStart, (⟨158, 950⟩ : Symbol)), (.symBit0, ⟨158, 263⟩), (.symBit1, ⟨158, 553⟩),
      (.symEnd, ⟨158, 30000⟩)] →
    s.txPending = y :: rest →
    exec i s = .next { s with
      line := s.line ++ [⟨.active, y.mark⟩, ⟨.idle, y.space⟩], txPending := rest }) ∧
  (∀ (s : State) (i : Instr) (y : Symbol),
    (i, y) ∈ [(Instr.symStart, (⟨158, 950⟩ : Symbol)), (.symBit0, ⟨158, 263⟩), (.symBit1, ⟨158, 553⟩),
      (.symEnd, ⟨158, 30000⟩)] →
    s.txPending.head? ≠ some y → exec i s = .refused .notNextSymbol)

/-! ### The decoder -/

/-- ISSTART and CLASSIFY (42_pulse_decoder.md R141, R142): the window with both ends included, and the threshold 320. -/
def Obligations.ClassificationResults : Prop :=
  ∀ (y : Symbol) (s : State),
    exec (.isStart y) s = .next { s with values := s.values ++
      [.verdict (decide (800 ≤ y.space.toNat ∧ y.space.toNat ≤ 1100))] } ∧
    exec (.classify y) s = .next { s with values := s.values ++ [.bit (decide (320 ≤ y.space.toNat))] }

/-- DECODE (42_pulse_decoder.md R144): the call delivers its frames and one INVALID_FRAME event for each that does not
validate, in scan order, and changes nothing else; the scan takes a start marker with 16 symbols after it as a frame whose
bit `15 - j` is the class of the `j`-th following symbol, resumes after those 16, and skips any other symbol alone. -/
def Obligations.DecodeScan : Prop :=
  (∀ (capture : List Symbol) (s : State),
    exec (.decode capture) s = .next { s with
      decoded := s.decoded ++ [decodeCapture capture]
      diags := s.diags ++ ((decodeCapture capture).filter fun f => !f.valid).map fun f => .invalidFrame f.packet }) ∧
  decodeCapture [] = [] ∧
  (∀ (y : Symbol) (rest : List Symbol),
    (800 ≤ y.space.toNat ∧ y.space.toNat ≤ 1100 ∧ 16 ≤ rest.length →
      ∃ v : Packet, decodeCapture (y :: rest) = ⟨v, validPacket v⟩ :: decodeCapture (rest.drop 16) ∧
        ∀ (j : Nat) (z : Symbol), j < 16 → rest[j]? = some z → v.getLsbD (15 - j) = decide (320 ≤ z.space.toNat)) ∧
    (¬ (800 ≤ y.space.toNat ∧ y.space.toNat ≤ 1100 ∧ 16 ≤ rest.length) →
      decodeCapture (y :: rest) = decodeCapture rest))

/-- The round trip in natural order (42_pulse_decoder.md R147, an inference the spec marks "derived"): `DECODE(NAT(v)) =
[(v, VALIDATE(v))]`. -/
def Obligations.DecodeNaturalRoundTrip : Prop :=
  ∀ v : Packet, decodeCapture (naturalFrame v) = [⟨v, validPacket v⟩]

/-- The loopback of the encoder's own frames (42_pulse_decoder.md R148, an inference the spec marks "derived"):
`DECODE(FRAME(v)) = [(SWAPBYTES(v), VALIDATE(v))]`. -/
def Obligations.DecodeLoopback : Prop :=
  ∀ v : Packet, decodeCapture (frameOf v) = [⟨swapBytes v, validPacket v⟩]

/-- Properties of the scan (42_pulse_decoder.md R145 (e), R146, R149, inferences the spec marks "derived"): marks are never
examined, garbage before a capture changes nothing, at most 16 symbols give nothing, and there are at most `floor(L / 17)`
results. -/
def Obligations.DecodeScanProperties : Prop :=
  (∀ c c' : List Symbol, c.map Symbol.space = c'.map Symbol.space → decodeCapture c = decodeCapture c') ∧
  (∀ noise c : List Symbol, (∀ y ∈ noise, isStartSpace y.space.toNat = false) →
    decodeCapture (noise ++ c) = decodeCapture c) ∧
  (∀ c : List Symbol, c.length ≤ 16 → decodeCapture c = []) ∧
  (∀ c : List Symbol, (decodeCapture c).length ≤ c.length / 17)

/-! ### Inbound commands -/

/-- APPEND (43_commands.md R162), accepted: `n = min(len div 2, 128 - q_count)` units are stored in order at the tail, low
byte first, every other byte of the queue is unchanged, the count grows by `n`, one APPEND_OVERFLOW tells how many units
were dropped, and the flush cause is raised when the queue is not empty; nothing else changes. -/
def Obligations.AppendResult : Prop :=
  ∀ (payload : List Byte) (s : State), s.port = [] → s.qLock = false → s.qCount ≤ 128 →
    ∃ t : State, exec (.append payload) s = .next t ∧
      t.qCount = s.qCount + min (payload.length / 2) (128 - s.qCount) ∧
      (∀ (j : Nat) (lo hi : Byte), j < min (payload.length / 2) (128 - s.qCount) →
        payload[2 * j]? = some lo → payload[2 * j + 1]? = some hi →
        readEntry t.qMem (s.qCount + j) = .ok (hi ++ lo)) ∧
      (∀ a : Nat, a < 2 * s.qCount ∨ 2 * t.qCount ≤ a → t.qMem.readByte a = s.qMem.readByte a) ∧
      t.diags = s.diags ++ (if 128 - s.qCount < payload.length / 2 then
        [.appendOverflow (payload.length / 2 - (128 - s.qCount))] else []) ∧
      t.wakeFlush = (if t.qCount ≠ 0 then true else s.wakeFlush) ∧
      t = { s with qMem := t.qMem, qCount := t.qCount, diags := t.diags, wakeFlush := t.wakeFlush }

/-- FLUSH (43_commands.md R165), accepted: the flush cause for a non-empty queue, else the warning FLUSH_EMPTY and no state
change; a payload is ignored. -/
def Obligations.FlushResult : Prop :=
  ∀ (payload : List Byte) (s : State), s.port = [] → s.qLock = false →
    (s.qCount ≠ 0 → exec (.flush payload) s = .next { s with wakeFlush := true }) ∧
    (s.qCount = 0 → exec (.flush payload) s = .next { s with diags := s.diags ++ [.flushEmpty] })

/-- HELDKEY (43_commands.md R167): the key is bits 3:0 of the one payload byte and the cause continue is raised, nothing
else, also while the queue is locked; any other payload length is refused. -/
def Obligations.HeldKeyResult : Prop :=
  (∀ (b : Byte) (s : State), s.port = [] →
    exec (.heldKey [b]) s = .next { s with heldKey := b.extractLsb' 0 4, wakeContinue := true }) ∧
  (∀ (payload : List Byte) (s : State), payload.length ≠ 1 → exec (.heldKey payload) s = .refused .heldKeyLength)

/-- SETCHAN (43_commands.md R169): the channel is bits 2:0 of the one payload byte and no wake is raised; any other payload
length is refused. -/
def Obligations.SetChanResult : Prop :=
  (∀ (b : Byte) (s : State), s.port = [] →
    exec (.setChan [b]) s = .next { s with channel := b.extractLsb' 0 3 }) ∧
  (∀ (payload : List Byte) (s : State), payload.length ≠ 1 → exec (.setChan payload) s = .refused .setChanLength)

/-- Waiting at the port (43_commands.md R160): an APPEND or FLUSH waits, unchanged, while `q_lock = 1`, and every command
waits behind one that waits; a waiting command changes nothing else. -/
def Obligations.CommandsWaitAtThePort : Prop :=
  ∀ (s : State),
    (s.qLock = true ∨ s.port ≠ [] →
      (∀ payload, exec (.append payload) s = .next { s with port := s.port ++ [.append payload] }) ∧
      (∀ payload, exec (.flush payload) s = .next { s with port := s.port ++ [.flush] })) ∧
    (s.port ≠ [] → ∀ b,
      exec (.heldKey [b]) s = .next { s with port := s.port ++ [.heldKey b] } ∧
      exec (.setChan [b]) s = .next { s with port := s.port ++ [.setChan b] })

/-! ### Events and wake causes -/

/-- The DIAG rows raise their event with its value and change nothing else (60_exceptions.md R222). The WAKE rows are the
arbiter's ARB_WAIT on that cause (44_arbiter.md R188): WAKE.continue where only continue is pending, WAKE.flush where flush is;
anywhere else they are refused, so no row sets a wake bit (10_state.md R27). That such a row, run as an operation, is this is the
model's reading (log 5, 6). -/
def Obligations.EventAndWakeRows : Prop :=
  ∀ s : State,
    exec .diagFlushEmpty s = .next { s with diags := s.diags ++ [.flushEmpty] } ∧
    (∀ n, exec (.diagAppendOverflow n) s = .next { s with diags := s.diags ++ [.appendOverflow n] }) ∧
    (∀ v, exec (.diagInvalidFrame v) s = .next { s with diags := s.diags ++ [.invalidFrame v] }) ∧
    (s.arbState = .wait → s.wakeFlush = false → s.wakeContinue = true →
      exec .wakeContinue s = .next { s with wakeContinue := false, arbState := .cycle }) ∧
    (s.arbState = .wait → s.wakeFlush = true → exec .wakeFlush s = exec .arbWait s) ∧
    (s.arbState = .wait → s.wakeFlush = true → s.qCount = 0 →
      exec .wakeFlush s = .next { s with wakeContinue := false, wakeFlush := false, arbState := .cycle }) ∧
    (s.arbState ≠ .wait ∨ s.wakeFlush = true ∨ s.wakeContinue = false →
      exec .wakeContinue s = .refused .stepNotEnabled) ∧
    (s.arbState ≠ .wait ∨ s.wakeFlush = false → exec .wakeFlush s = .refused .stepNotEnabled)

/-! ### The arbiter -/

/-- ARB_CYCLE with the begin step it selects (44_arbiter.md R182, R184, R186): a held key first, then the stop pair, then
WAIT; the row ARBSTATE.CYCLE is the same step, and ARB_HELD and ARB_STOP begin are the first two branches (log 7, 15). -/
def Obligations.CycleStepResult : Prop :=
  ∀ s : State, s.arbState = .cycle →
    exec .arbStateCycle s = exec .arbCycle s ∧
    (s.heldKey ≠ 0 →
      exec .arbCycle s = .next { s with
        txBuf0 := encodePacket s.heldKey s.channel, batchSrc := .buf, batchN := 1,
        encPhase := .start, encIndex := 0, encBit := 0, encDone := false, arbState := .txHeld } ∧
      exec (.arbHeld .start) s = exec .arbCycle s) ∧
    (s.heldKey = 0 → s.stopSent = false →
      exec .arbCycle s = .next { s with
        txBuf0 := encodePacket 0 s.channel, txBuf1 := encodePacket 0 s.channel, batchSrc := .buf, batchN := 2,
        encPhase := .start, encIndex := 0, encBit := 0, encDone := false, arbState := .txStop } ∧
      exec (.arbStop .start) s = exec .arbCycle s) ∧
    (s.heldKey = 0 → s.stopSent = true → exec .arbCycle s = .next { s with arbState := .wait })

/-- ARB_HELD completion (44_arbiter.md R185) by each operation that brings it about: `stop_sent` cleared whatever the
result, back to CYCLE, no token; that these four rows are one completion is the model's reading (log 4, 7, 15, 17). With `done`
every symbol handed over reaches the line (R194). With any other result "which prefix is not specified" (R194): that the line
keeps what the environment has played and the rest is lost is the model's choice (log 18). -/
def Obligations.HeldCompletionResult : Prop :=
  ∀ (s : State) (r : Token) (i : Instr), s.arbState = .txHeld → (r = .done → s.encDone = true) →
    i ∈ [Instr.arbStateTxHeld r, .arbHeld (.complete r), resultInstr r, .transmit (.finish r)] →
    exec i s = .next { s with
      line := (if r = .done then s.line ++ waveform s.txPending else s.line), txPending := [],
      stopSent := false, arbState := .cycle }

/-- ARB_STOP completion (44_arbiter.md R187) by each operation that brings it about: `stop_sent` set whatever the result,
back to CYCLE, no token (log 4, 7, 15, 17 as above); the line and the waiting symbols with a result other than `done` are the
model's choice (log 18 as above). -/
def Obligations.StopCompletionResult : Prop :=
  ∀ (s : State) (r : Token) (i : Instr), s.arbState = .txStop → (r = .done → s.encDone = true) →
    i ∈ [Instr.arbStateTxStop r, .arbStop (.complete r), resultInstr r, .transmit (.finish r)] →
    exec i s = .next { s with
      line := (if r = .done then s.line ++ waveform s.txPending else s.line), txPending := [],
      stopSent := true, arbState := .cycle }

/-- ARB_FLUSH completion (44_arbiter.md R191, R198) by each operation that brings it about: exactly the token of the result
is published, the queue count and the lock are cleared whatever the result, back to CYCLE (log 4, 7, 15, 17 as above); the line
and the waiting symbols with a result other than `done` are the model's choice (log 18 as above). -/
def Obligations.FlushCompletionResult : Prop :=
  ∀ (s : State) (r : Token) (i : Instr), s.arbState = .txFlush → (r = .done → s.encDone = true) →
    i ∈ [Instr.arbStateTxFlush r, .arbFlush (.complete r), resultInstr r, .transmit (.finish r)] →
    exec i s = .next { s with
      line := (if r = .done then s.line ++ waveform s.txPending else s.line), txPending := [],
      tokens := s.tokens ++ [r], qCount := 0, qLock := false, arbState := .cycle }

/-- A transmission result has no meaning while no transmission is outstanding, and `done` none while `enc_done = 0`, by
whichever operation it is presented: the OUT row, TRANSMIT's end, the ARBSTATE row of the state, the completion of the sub-step
(44_arbiter.md R194, 93_implementation_defined.md U7). That these operations present a result is the model's reading (log 4, 7,
15, 17). -/
def Obligations.ResultRefusals : Prop :=
  (∀ (s : State) (r : Token), outstanding s = false →
    exec (resultInstr r) s = .refused .noTransmission ∧ exec (.transmit (.finish r)) s = .refused .noTransmission) ∧
  (∀ s : State, outstanding s = true → s.encDone = false →
    exec .outDone s = .refused .doneBeforeEncoder ∧
    exec (.transmit (.finish .done)) s = .refused .doneBeforeEncoder) ∧
  (∀ (s : State) (i : Instr) (a : ArbState),
    (i, a) ∈ [(Instr.arbStateTxHeld .done, ArbState.txHeld), (.arbHeld (.complete .done), .txHeld),
      (.arbStateTxStop .done, .txStop), (.arbStop (.complete .done), .txStop),
      (.arbStateTxFlush .done, .txFlush), (.arbFlush (.complete .done), .txFlush)] →
    s.arbState = a → s.encDone = false → exec i s = .refused .doneBeforeEncoder)

/-- ARB_WAIT where it starts no transmission (44_arbiter.md R188, R181): blocked with no wake bit, back to CYCLE on
continue, back to CYCLE on a flush cause that finds the queue empty; the row ARBSTATE.WAIT is the same step (log 7, 14). -/
def Obligations.WaitStepResult : Prop :=
  ∀ s : State, s.arbState = .wait →
    exec .arbStateWait s = exec .arbWait s ∧
    (s.wakeFlush = false → s.wakeContinue = false → exec .arbWait s = .next s) ∧
    (s.wakeFlush = false → s.wakeContinue = true →
      exec .arbWait s = .next { s with wakeContinue := false, arbState := .cycle }) ∧
    (s.wakeFlush = true → s.qCount = 0 →
      exec .arbWait s = .next { s with wakeContinue := false, wakeFlush := false, arbState := .cycle })

/-- ARB_WAIT and ARB_FLUSH begin on a queue that is not empty (44_arbiter.md R188, R190): both causes are consumed, the
queue is locked, every entry becomes `ENCODE(KEY(entry), channel)` in place, the whole queue is the batch, the encoder is
reset, TX_FLUSH; the bytes outside the entries and everything else are unchanged (log 15 for the row ARB_FLUSH, log 6 for the
row WAKE.flush). -/
def Obligations.FlushBeginResult : Prop :=
  ∀ (s : State) (es : List Packet), s.arbState = .wait → s.wakeFlush = true → QueueIs s es → es ≠ [] →
    exec (.arbFlush .start) s = exec .arbWait s ∧ exec .wakeFlush s = exec .arbWait s ∧
    ∃ t : State, exec .arbWait s = .next t ∧
      QueueIs t (es.map fun p => encodePacket (keyField p) s.channel) ∧
      BatchIs t (es.map fun p => encodePacket (keyField p) s.channel) ∧
      (∀ a : Nat, 2 * s.qCount ≤ a → t.qMem.readByte a = s.qMem.readByte a) ∧
      t = { s with
        qMem := t.qMem, qLock := true, wakeContinue := false, wakeFlush := false, batchSrc := .queue,
        batchN := s.qCount, encPhase := .start, encIndex := 0, encBit := 0, encDone := false, arbState := .txFlush }

/-- TRANSMIT's begin is ENC_RESET, "part of the arbiter's begin step", and none begins while another is outstanding
(44_arbiter.md R194, R195). That the part may be run on its own in the states whose next arbiter step begins a transmission, and
nowhere else, is the model's choice (log 16, 17). -/
def Obligations.TransmitBeginResult : Prop :=
  ∀ s : State,
    (BeginEnabled s → exec (.transmit .start) s = .next { s with
      encPhase := .start, encIndex := 0, encBit := 0, encDone := false }) ∧
    (outstanding s = true → exec (.transmit .start) s = .refused .transmissionOutstanding) ∧
    (outstanding s = false → ¬ BeginEnabled s → exec (.transmit .start) s = .refused .resetOutsideBegin)

/-- A step that the state does not enable is no step (44_arbiter.md R181, "Every transition is listed; there is no other"):
neither in another state, nor in its own state without its condition (no key held, a stop already sent, no flush cause). That an
ARBSTATE row is the step of that state is the model's reading (log 7), and so are the begin and completion rows of the sub-steps
(log 15). -/
def Obligations.StepsNotEnabledAreRefused : Prop :=
  (∀ s : State, s.arbState = .cycle →
    (s.heldKey = 0 → exec (.arbHeld .start) s = .refused .stepNotEnabled) ∧
    (s.heldKey ≠ 0 ∨ s.stopSent = true → exec (.arbStop .start) s = .refused .stepNotEnabled)) ∧
  (∀ s : State, s.arbState = .wait → s.wakeFlush = false → exec (.arbFlush .start) s = .refused .stepNotEnabled) ∧
  ∀ (s : State) (i : Instr) (a : ArbState) (r : Token),
    (i, a) ∈ [(Instr.arbCycle, ArbState.cycle), (.arbStateCycle, .cycle), (.arbHeld .start, .cycle),
      (.arbStop .start, .cycle), (.arbWait, .wait), (.arbStateWait, .wait), (.arbFlush .start, .wait),
      (.arbStateTxHeld r, .txHeld), (.arbHeld (.complete r), .txHeld), (.arbStateTxStop r, .txStop),
      (.arbStop (.complete r), .txStop), (.arbStateTxFlush r, .txFlush), (.arbFlush (.complete r), .txFlush)] →
    s.arbState ≠ a → exec i s = .refused .stepNotEnabled

/-! ### Rules of the whole block -/

/-- The state graph of `arb_state` (44_arbiter.md R181, an inference the spec marks "derived"): every operation leaves it or
takes one of the listed transitions, with the listed condition. -/
def Obligations.ArbiterStateGraph : Prop :=
  ∀ (i : Instr) (s t : State), exec i s = .next t →
    arbEdge s.arbState t.arbState ∧
    (s.arbState = .cycle → t.arbState = .txHeld → s.heldKey ≠ 0) ∧
    (s.arbState = .cycle → t.arbState = .txStop → s.heldKey = 0 ∧ s.stopSent = false) ∧
    (s.arbState = .cycle → t.arbState = .wait → s.heldKey = 0 ∧ s.stopSent = true) ∧
    (s.arbState = .wait → t.arbState = .txFlush → s.wakeFlush = true ∧ s.qCount ≠ 0) ∧
    (s.arbState = .wait → t.arbState = .cycle →
      (s.wakeFlush = false ∧ s.wakeContinue = true) ∨ (s.wakeFlush = true ∧ s.qCount = 0))

/-- The number of tokens grows exactly in ARB_FLUSH completion steps, by one (44_arbiter.md R198, R199). -/
def Obligations.TokensOnlyFromFlushCompletion : Prop :=
  ∀ (i : Instr) (s t : State), exec i s = .next t →
    (s.arbState = .txFlush ∧ t.arbState = .cycle → ∃ r, t.tokens = s.tokens ++ [r]) ∧
    (¬ (s.arbState = .txFlush ∧ t.arbState = .cycle) → t.tokens = s.tokens)

/-- While a flush is in progress no step changes the queue: it ends only by the completion, which clears the count and
leaves the entries; and a flush always completes: with no event left the timer ends it, and the APPEND or FLUSH that waits on
the lock is accepted in the next step (20_memory.md R55, R56, inferences the spec marks "derived"; that no event left means that
nothing else ends it is the model's, log 13, 27). -/
def Obligations.QueueIsStableDuringFlush : Prop :=
  (∀ s t : State, s.qLock = true → s.arbState = .txFlush → step s = .next t →
    t.qMem = s.qMem ∧
    ((t.arbState = .txFlush ∧ t.qLock = true ∧ t.qCount = s.qCount ∧ t.batchSrc = s.batchSrc ∧ t.batchN = s.batchN) ∨
     (t.arbState = .cycle ∧ t.qLock = false ∧ t.qCount = 0))) ∧
  (∀ (s : State) (c : Command) (rest : List Command), s.inbox = [] → s.qLock = true → s.arbState = .txFlush →
    s.port = c :: rest → (c = .flush ∨ ∃ payload, c = .append payload) →
    ∃ t : State, step s = .next t ∧ t.arbState = .cycle ∧ t.qLock = false ∧ t.qCount = 0 ∧
      t.tokens = s.tokens ++ [.timeout] ∧ t.port = s.port ∧
      step t = mapNext (fun u => { u with port := rest }) (exec (commandInstr c) { t with port := [] }))

/-- The write rights of 10_state.md R27 for every element but `q_mem` and `arb_state` (QueueMemoryWriters, ArbiterStateGraph):
each changes only by the operation or the step the table lists for it. The begin and completion steps are named by the
transition of `arb_state` they take; the rows that call DRIVE, and the two that request ENC_RESET, are the model's reading (log
8, 16, 17). -/
def Obligations.WriteRights : Prop :=
  ∀ (i : Instr) (s t : State), exec i s = .next t →
    (t.heldKey = s.heldKey ∨ ∃ b, i = .heldKey [b]) ∧
    (t.channel = s.channel ∨ ∃ b, i = .setChan [b]) ∧
    (t.stopSent = s.stopSent ∨ (s.arbState = .txHeld ∧ t.arbState = .cycle ∧ t.stopSent = false) ∨
      (s.arbState = .txStop ∧ t.arbState = .cycle ∧ t.stopSent = true)) ∧
    (t.encTotal = s.encTotal ∨ (outstanding s = true ∧ t.encDone = true ∧
      ((∃ cap, i = .drive cap ∨ i = .transmit (.drive cap)) ∨ i = .encPhaseEnd))) ∧
    ((t.encPhase = s.encPhase ∧ t.encIndex = s.encIndex ∧ t.encBit = s.encBit ∧ t.encDone = s.encDone) ∨
      (outstanding s = true ∧ CallsDrive i) ∨ i = .encReset ∨ i = .transmit .start ∨
      (outstanding s = false ∧ outstanding t = true)) ∧
    ((t.batchSrc = s.batchSrc ∧ t.batchN = s.batchN ∧ t.txBuf0 = s.txBuf0 ∧ t.txBuf1 = s.txBuf1) ∨
      (outstanding s = false ∧ outstanding t = true)) ∧
    (t.qCount = s.qCount ∨ (∃ payload, i = .append payload) ∨
      (s.arbState = .txFlush ∧ t.arbState = .cycle ∧ t.qCount = 0)) ∧
    (t.qLock = s.qLock ∨ (s.arbState = .wait ∧ t.arbState = .txFlush ∧ t.qLock = true) ∨
      (s.arbState = .txFlush ∧ t.arbState = .cycle ∧ t.qLock = false)) ∧
    (t.wakeContinue = s.wakeContinue ∨ (t.wakeContinue = true ∧ ∃ b, i = .heldKey [b]) ∨
      (t.wakeContinue = false ∧ s.arbState = .wait ∧ t.arbState ≠ .wait)) ∧
    (t.wakeFlush = s.wakeFlush ∨ (t.wakeFlush = true ∧ ∃ payload, i = .append payload ∨ i = .flush payload) ∨
      (t.wakeFlush = false ∧ s.arbState = .wait ∧ t.arbState ≠ .wait))

/-- The queue memory is written by APPEND, while the queue is not locked, and by ARB_FLUSH begin, and by nothing else
(10_state.md R11, R27). -/
def Obligations.QueueMemoryWriters : Prop :=
  ∀ (i : Instr) (s t : State), exec i s = .next t →
    t.qMem = s.qMem ∨ (∃ payload, i = .append payload ∧ s.qLock = false ∧ s.port = []) ∨
      (s.arbState = .wait ∧ s.wakeFlush = true ∧ t.arbState = .txFlush)

/-- A pending wake cause is cleared only by ARB_WAIT, a step out of WAIT, which clears both at once (10_state.md R17,
44_arbiter.md R188). -/
def Obligations.WakeCausesAreSticky : Prop :=
  ∀ (i : Instr) (s t : State), exec i s = .next t →
    (s.wakeFlush = true → t.wakeFlush = true ∨
      (s.arbState = .wait ∧ t.arbState ≠ .wait ∧ t.wakeContinue = false)) ∧
    (s.wakeContinue = true → t.wakeContinue = true ∨
      (s.arbState = .wait ∧ t.arbState ≠ .wait ∧ t.wakeFlush = false))

/-- A held key starves the queue (44_arbiter.md R192, an inference the spec marks "derived"): one operation from CYCLE with
a key held leads to CYCLE or TX_HELD, never to WAIT, the pending flush cause stays, and the queue does not shrink. -/
def Obligations.HeldKeyStarvesTheQueue : Prop :=
  ∀ (i : Instr) (s t : State), s.arbState = .cycle → s.heldKey ≠ 0 → exec i s = .next t →
    (t.arbState = .cycle ∨ t.arbState = .txHeld) ∧ (s.wakeFlush = true → t.wakeFlush = true) ∧
    s.qCount ≤ t.qCount

/-- The stop pair is edge-triggered (44_arbiter.md R189, an inference the spec marks "derived"): it is started only with no
key held and `stop_sent = 0`, and `stop_sent` becomes 0 only by the completion of a held-key transmission. -/
def Obligations.StopIsEdgeTriggered : Prop :=
  ∀ (i : Instr) (s t : State), exec i s = .next t →
    (s.arbState ≠ .txStop → t.arbState = .txStop → s.arbState = .cycle ∧ s.heldKey = 0 ∧ s.stopSent = false) ∧
    (s.stopSent = true → t.stopSent = false → s.arbState = .txHeld ∧ t.arbState = .cycle)

/-- The encoder emits no symbol outside the transmit alphabet (30_encoding.md R66). -/
def Obligations.OnlyTheAlphabetIsEmitted : Prop :=
  ∀ (i : Instr) (s t : State), exec i s = .next t →
    ∃ out, t.symbols = s.symbols ++ out ∧ ∀ y ∈ out, y ∈ transmitAlphabet

/-- What reaches the line (44_arbiter.md R194), whatever the capacities of the DRIVE calls, and whatever else the environment
does between them, the SYM rows that play symbols among it. Where a transmission begins, the line stands before the first
symbol of its batch; every operation during the transmission keeps the line at a prefix of `WAVEFORM(FRAMESEQ(batch))`, the
other symbols emitted waiting in order; the result `done` leaves exactly the whole of it on the line, once, and any other result
some prefix of what was emitted. Last, DRIVE calls whose capacities reach `18*N` make `done` possible. That OUT is TXRESULT is the
model's reading (log 4), and when the waiting symbols reach the line is its choice (log 3, 18). -/
def Obligations.DoneTransmissionReachesTheLine : Prop :=
  (∀ (i : Instr) (s t : State), BlockInv s → outstanding s = false → outstanding t = true → exec i s = .next t →
    ∃ ps, ps ≠ [] ∧ BatchIs t ps ∧ AtStart t ∧ t.encDone = false ∧ LineCarries s.line ps t) ∧
  (∀ (i : Instr) (s t : State) (before : List Segment) (ps : List Packet), BlockInv s → outstanding s = true →
    outstanding t = true → BatchIs s ps → LineCarries before ps s → exec i s = .next t →
    BatchIs t ps ∧ LineCarries before ps t) ∧
  (∀ (s : State) (before : List Segment) (ps : List Packet) (r : Token), outstanding s = true → BatchIs s ps →
    LineCarries before ps s → (r = .done → s.encDone = true) →
    ∃ u : State, exec (resultInstr r) s = .next u ∧ u.txPending = [] ∧ u.arbState = .cycle ∧
      (r = .done → u.line = before ++ waveform (frameSeq ps)) ∧
      (r ≠ .done → ∃ k, k ≤ emitted s ∧ u.line = before ++ waveform ((frameSeq ps).take k))) ∧
  ∀ (s : State) (ps : List Packet) (caps : List Nat) (last : Nat),
    outstanding s = true → s.encDone = false → AtStart s → s.txPending = [] → BatchIs s ps → ps ≠ [] →
    caps.sum < 18 * ps.length → 18 * ps.length ≤ caps.sum + last →
    ∃ t u : State, driveCalls (caps ++ [last]) s = .next t ∧ exec .outDone t = .next u ∧
      u.line = s.line ++ waveform (frameSeq ps) ∧ u.txPending = [] ∧ u.arbState = .cycle
end

