-- ==== Sys2Proof/Laws/State.lean ====
section
/-! SUPPORT. One lemma per field per named update of the state (Machine/Ops.lean), so that no later proof unfolds a record
update. -/

namespace Sys2Proof.Machine

section
variable (s : State) (v : Value)
@[simp] theorem State.returns_qMem : (s.returns v).qMem = s.qMem := rfl
@[simp] theorem State.returns_qCount : (s.returns v).qCount = s.qCount := rfl
@[simp] theorem State.returns_qLock : (s.returns v).qLock = s.qLock := rfl
@[simp] theorem State.returns_heldKey : (s.returns v).heldKey = s.heldKey := rfl
@[simp] theorem State.returns_stopSent : (s.returns v).stopSent = s.stopSent := rfl
@[simp] theorem State.returns_channel : (s.returns v).channel = s.channel := rfl
@[simp] theorem State.returns_wakeContinue : (s.returns v).wakeContinue = s.wakeContinue := rfl
@[simp] theorem State.returns_wakeFlush : (s.returns v).wakeFlush = s.wakeFlush := rfl
@[simp] theorem State.returns_encPhase : (s.returns v).encPhase = s.encPhase := rfl
@[simp] theorem State.returns_encIndex : (s.returns v).encIndex = s.encIndex := rfl
@[simp] theorem State.returns_encBit : (s.returns v).encBit = s.encBit := rfl
@[simp] theorem State.returns_encTotal : (s.returns v).encTotal = s.encTotal := rfl
@[simp] theorem State.returns_encDone : (s.returns v).encDone = s.encDone := rfl
@[simp] theorem State.returns_batchSrc : (s.returns v).batchSrc = s.batchSrc := rfl
@[simp] theorem State.returns_batchN : (s.returns v).batchN = s.batchN := rfl
@[simp] theorem State.returns_txBuf0 : (s.returns v).txBuf0 = s.txBuf0 := rfl
@[simp] theorem State.returns_txBuf1 : (s.returns v).txBuf1 = s.txBuf1 := rfl
@[simp] theorem State.returns_arbState : (s.returns v).arbState = s.arbState := rfl
@[simp] theorem State.returns_symbols : (s.returns v).symbols = s.symbols := rfl
@[simp] theorem State.returns_tokens : (s.returns v).tokens = s.tokens := rfl
@[simp] theorem State.returns_diags : (s.returns v).diags = s.diags := rfl
@[simp] theorem State.returns_decoded : (s.returns v).decoded = s.decoded := rfl
@[simp] theorem State.returns_values : (s.returns v).values = s.values ++ [v] := rfl
@[simp] theorem State.returns_line : (s.returns v).line = s.line := rfl
@[simp] theorem State.returns_txPending : (s.returns v).txPending = s.txPending := rfl
@[simp] theorem State.returns_port : (s.returns v).port = s.port := rfl
@[simp] theorem State.returns_inbox : (s.returns v).inbox = s.inbox := rfl
end

section
variable (s : State) (d : Diag)
@[simp] theorem State.raiseDiag_qMem : (s.raiseDiag d).qMem = s.qMem := rfl
@[simp] theorem State.raiseDiag_qCount : (s.raiseDiag d).qCount = s.qCount := rfl
@[simp] theorem State.raiseDiag_qLock : (s.raiseDiag d).qLock = s.qLock := rfl
@[simp] theorem State.raiseDiag_heldKey : (s.raiseDiag d).heldKey = s.heldKey := rfl
@[simp] theorem State.raiseDiag_stopSent : (s.raiseDiag d).stopSent = s.stopSent := rfl
@[simp] theorem State.raiseDiag_channel : (s.raiseDiag d).channel = s.channel := rfl
@[simp] theorem State.raiseDiag_wakeContinue : (s.raiseDiag d).wakeContinue = s.wakeContinue := rfl
@[simp] theorem State.raiseDiag_wakeFlush : (s.raiseDiag d).wakeFlush = s.wakeFlush := rfl
@[simp] theorem State.raiseDiag_encPhase : (s.raiseDiag d).encPhase = s.encPhase := rfl
@[simp] theorem State.raiseDiag_encIndex : (s.raiseDiag d).encIndex = s.encIndex := rfl
@[simp] theorem State.raiseDiag_encBit : (s.raiseDiag d).encBit = s.encBit := rfl
@[simp] theorem State.raiseDiag_encTotal : (s.raiseDiag d).encTotal = s.encTotal := rfl
@[simp] theorem State.raiseDiag_encDone : (s.raiseDiag d).encDone = s.encDone := rfl
@[simp] theorem State.raiseDiag_batchSrc : (s.raiseDiag d).batchSrc = s.batchSrc := rfl
@[simp] theorem State.raiseDiag_batchN : (s.raiseDiag d).batchN = s.batchN := rfl
@[simp] theorem State.raiseDiag_txBuf0 : (s.raiseDiag d).txBuf0 = s.txBuf0 := rfl
@[simp] theorem State.raiseDiag_txBuf1 : (s.raiseDiag d).txBuf1 = s.txBuf1 := rfl
@[simp] theorem State.raiseDiag_arbState : (s.raiseDiag d).arbState = s.arbState := rfl
@[simp] theorem State.raiseDiag_symbols : (s.raiseDiag d).symbols = s.symbols := rfl
@[simp] theorem State.raiseDiag_tokens : (s.raiseDiag d).tokens = s.tokens := rfl
@[simp] theorem State.raiseDiag_diags : (s.raiseDiag d).diags = s.diags ++ [d] := rfl
@[simp] theorem State.raiseDiag_decoded : (s.raiseDiag d).decoded = s.decoded := rfl
@[simp] theorem State.raiseDiag_values : (s.raiseDiag d).values = s.values := rfl
@[simp] theorem State.raiseDiag_line : (s.raiseDiag d).line = s.line := rfl
@[simp] theorem State.raiseDiag_txPending : (s.raiseDiag d).txPending = s.txPending := rfl
@[simp] theorem State.raiseDiag_port : (s.raiseDiag d).port = s.port := rfl
@[simp] theorem State.raiseDiag_inbox : (s.raiseDiag d).inbox = s.inbox := rfl
end

section
variable (s : State) (t : Token)
@[simp] theorem State.notify_qMem : (s.notify t).qMem = s.qMem := rfl
@[simp] theorem State.notify_qCount : (s.notify t).qCount = s.qCount := rfl
@[simp] theorem State.notify_qLock : (s.notify t).qLock = s.qLock := rfl
@[simp] theorem State.notify_heldKey : (s.notify t).heldKey = s.heldKey := rfl
@[simp] theorem State.notify_stopSent : (s.notify t).stopSent = s.stopSent := rfl
@[simp] theorem State.notify_channel : (s.notify t).channel = s.channel := rfl
@[simp] theorem State.notify_wakeContinue : (s.notify t).wakeContinue = s.wakeContinue := rfl
@[simp] theorem State.notify_wakeFlush : (s.notify t).wakeFlush = s.wakeFlush := rfl
@[simp] theorem State.notify_encPhase : (s.notify t).encPhase = s.encPhase := rfl
@[simp] theorem State.notify_encIndex : (s.notify t).encIndex = s.encIndex := rfl
@[simp] theorem State.notify_encBit : (s.notify t).encBit = s.encBit := rfl
@[simp] theorem State.notify_encTotal : (s.notify t).encTotal = s.encTotal := rfl
@[simp] theorem State.notify_encDone : (s.notify t).encDone = s.encDone := rfl
@[simp] theorem State.notify_batchSrc : (s.notify t).batchSrc = s.batchSrc := rfl
@[simp] theorem State.notify_batchN : (s.notify t).batchN = s.batchN := rfl
@[simp] theorem State.notify_txBuf0 : (s.notify t).txBuf0 = s.txBuf0 := rfl
@[simp] theorem State.notify_txBuf1 : (s.notify t).txBuf1 = s.txBuf1 := rfl
@[simp] theorem State.notify_arbState : (s.notify t).arbState = s.arbState := rfl
@[simp] theorem State.notify_symbols : (s.notify t).symbols = s.symbols := rfl
@[simp] theorem State.notify_tokens : (s.notify t).tokens = s.tokens ++ [t] := rfl
@[simp] theorem State.notify_diags : (s.notify t).diags = s.diags := rfl
@[simp] theorem State.notify_decoded : (s.notify t).decoded = s.decoded := rfl
@[simp] theorem State.notify_values : (s.notify t).values = s.values := rfl
@[simp] theorem State.notify_line : (s.notify t).line = s.line := rfl
@[simp] theorem State.notify_txPending : (s.notify t).txPending = s.txPending := rfl
@[simp] theorem State.notify_port : (s.notify t).port = s.port := rfl
@[simp] theorem State.notify_inbox : (s.notify t).inbox = s.inbox := rfl
end

section
variable (s : State)
@[simp] theorem State.raiseContinue_qMem : s.raiseContinue.qMem = s.qMem := rfl
@[simp] theorem State.raiseContinue_qCount : s.raiseContinue.qCount = s.qCount := rfl
@[simp] theorem State.raiseContinue_qLock : s.raiseContinue.qLock = s.qLock := rfl
@[simp] theorem State.raiseContinue_heldKey : s.raiseContinue.heldKey = s.heldKey := rfl
@[simp] theorem State.raiseContinue_stopSent : s.raiseContinue.stopSent = s.stopSent := rfl
@[simp] theorem State.raiseContinue_channel : s.raiseContinue.channel = s.channel := rfl
@[simp] theorem State.raiseContinue_wakeContinue : s.raiseContinue.wakeContinue = true := rfl
@[simp] theorem State.raiseContinue_wakeFlush : s.raiseContinue.wakeFlush = s.wakeFlush := rfl
@[simp] theorem State.raiseContinue_encPhase : s.raiseContinue.encPhase = s.encPhase := rfl
@[simp] theorem State.raiseContinue_encIndex : s.raiseContinue.encIndex = s.encIndex := rfl
@[simp] theorem State.raiseContinue_encBit : s.raiseContinue.encBit = s.encBit := rfl
@[simp] theorem State.raiseContinue_encTotal : s.raiseContinue.encTotal = s.encTotal := rfl
@[simp] theorem State.raiseContinue_encDone : s.raiseContinue.encDone = s.encDone := rfl
@[simp] theorem State.raiseContinue_batchSrc : s.raiseContinue.batchSrc = s.batchSrc := rfl
@[simp] theorem State.raiseContinue_batchN : s.raiseContinue.batchN = s.batchN := rfl
@[simp] theorem State.raiseContinue_txBuf0 : s.raiseContinue.txBuf0 = s.txBuf0 := rfl
@[simp] theorem State.raiseContinue_txBuf1 : s.raiseContinue.txBuf1 = s.txBuf1 := rfl
@[simp] theorem State.raiseContinue_arbState : s.raiseContinue.arbState = s.arbState := rfl
@[simp] theorem State.raiseContinue_symbols : s.raiseContinue.symbols = s.symbols := rfl
@[simp] theorem State.raiseContinue_tokens : s.raiseContinue.tokens = s.tokens := rfl
@[simp] theorem State.raiseContinue_diags : s.raiseContinue.diags = s.diags := rfl
@[simp] theorem State.raiseContinue_decoded : s.raiseContinue.decoded = s.decoded := rfl
@[simp] theorem State.raiseContinue_values : s.raiseContinue.values = s.values := rfl
@[simp] theorem State.raiseContinue_line : s.raiseContinue.line = s.line := rfl
@[simp] theorem State.raiseContinue_txPending : s.raiseContinue.txPending = s.txPending := rfl
@[simp] theorem State.raiseContinue_port : s.raiseContinue.port = s.port := rfl
@[simp] theorem State.raiseContinue_inbox : s.raiseContinue.inbox = s.inbox := rfl
end

section
variable (s : State)
@[simp] theorem State.raiseFlush_qMem : s.raiseFlush.qMem = s.qMem := rfl
@[simp] theorem State.raiseFlush_qCount : s.raiseFlush.qCount = s.qCount := rfl
@[simp] theorem State.raiseFlush_qLock : s.raiseFlush.qLock = s.qLock := rfl
@[simp] theorem State.raiseFlush_heldKey : s.raiseFlush.heldKey = s.heldKey := rfl
@[simp] theorem State.raiseFlush_stopSent : s.raiseFlush.stopSent = s.stopSent := rfl
@[simp] theorem State.raiseFlush_channel : s.raiseFlush.channel = s.channel := rfl
@[simp] theorem State.raiseFlush_wakeContinue : s.raiseFlush.wakeContinue = s.wakeContinue := rfl
@[simp] theorem State.raiseFlush_wakeFlush : s.raiseFlush.wakeFlush = true := rfl
@[simp] theorem State.raiseFlush_encPhase : s.raiseFlush.encPhase = s.encPhase := rfl
@[simp] theorem State.raiseFlush_encIndex : s.raiseFlush.encIndex = s.encIndex := rfl
@[simp] theorem State.raiseFlush_encBit : s.raiseFlush.encBit = s.encBit := rfl
@[simp] theorem State.raiseFlush_encTotal : s.raiseFlush.encTotal = s.encTotal := rfl
@[simp] theorem State.raiseFlush_encDone : s.raiseFlush.encDone = s.encDone := rfl
@[simp] theorem State.raiseFlush_batchSrc : s.raiseFlush.batchSrc = s.batchSrc := rfl
@[simp] theorem State.raiseFlush_batchN : s.raiseFlush.batchN = s.batchN := rfl
@[simp] theorem State.raiseFlush_txBuf0 : s.raiseFlush.txBuf0 = s.txBuf0 := rfl
@[simp] theorem State.raiseFlush_txBuf1 : s.raiseFlush.txBuf1 = s.txBuf1 := rfl
@[simp] theorem State.raiseFlush_arbState : s.raiseFlush.arbState = s.arbState := rfl
@[simp] theorem State.raiseFlush_symbols : s.raiseFlush.symbols = s.symbols := rfl
@[simp] theorem State.raiseFlush_tokens : s.raiseFlush.tokens = s.tokens := rfl
@[simp] theorem State.raiseFlush_diags : s.raiseFlush.diags = s.diags := rfl
@[simp] theorem State.raiseFlush_decoded : s.raiseFlush.decoded = s.decoded := rfl
@[simp] theorem State.raiseFlush_values : s.raiseFlush.values = s.values := rfl
@[simp] theorem State.raiseFlush_line : s.raiseFlush.line = s.line := rfl
@[simp] theorem State.raiseFlush_txPending : s.raiseFlush.txPending = s.txPending := rfl
@[simp] theorem State.raiseFlush_port : s.raiseFlush.port = s.port := rfl
@[simp] theorem State.raiseFlush_inbox : s.raiseFlush.inbox = s.inbox := rfl
end

section
variable (s : State)
@[simp] theorem State.clearWakes_qMem : s.clearWakes.qMem = s.qMem := rfl
@[simp] theorem State.clearWakes_qCount : s.clearWakes.qCount = s.qCount := rfl
@[simp] theorem State.clearWakes_qLock : s.clearWakes.qLock = s.qLock := rfl
@[simp] theorem State.clearWakes_heldKey : s.clearWakes.heldKey = s.heldKey := rfl
@[simp] theorem State.clearWakes_stopSent : s.clearWakes.stopSent = s.stopSent := rfl
@[simp] theorem State.clearWakes_channel : s.clearWakes.channel = s.channel := rfl
@[simp] theorem State.clearWakes_wakeContinue : s.clearWakes.wakeContinue = false := rfl
@[simp] theorem State.clearWakes_wakeFlush : s.clearWakes.wakeFlush = false := rfl
@[simp] theorem State.clearWakes_encPhase : s.clearWakes.encPhase = s.encPhase := rfl
@[simp] theorem State.clearWakes_encIndex : s.clearWakes.encIndex = s.encIndex := rfl
@[simp] theorem State.clearWakes_encBit : s.clearWakes.encBit = s.encBit := rfl
@[simp] theorem State.clearWakes_encTotal : s.clearWakes.encTotal = s.encTotal := rfl
@[simp] theorem State.clearWakes_encDone : s.clearWakes.encDone = s.encDone := rfl
@[simp] theorem State.clearWakes_batchSrc : s.clearWakes.batchSrc = s.batchSrc := rfl
@[simp] theorem State.clearWakes_batchN : s.clearWakes.batchN = s.batchN := rfl
@[simp] theorem State.clearWakes_txBuf0 : s.clearWakes.txBuf0 = s.txBuf0 := rfl
@[simp] theorem State.clearWakes_txBuf1 : s.clearWakes.txBuf1 = s.txBuf1 := rfl
@[simp] theorem State.clearWakes_arbState : s.clearWakes.arbState = s.arbState := rfl
@[simp] theorem State.clearWakes_symbols : s.clearWakes.symbols = s.symbols := rfl
@[simp] theorem State.clearWakes_tokens : s.clearWakes.tokens = s.tokens := rfl
@[simp] theorem State.clearWakes_diags : s.clearWakes.diags = s.diags := rfl
@[simp] theorem State.clearWakes_decoded : s.clearWakes.decoded = s.decoded := rfl
@[simp] theorem State.clearWakes_values : s.clearWakes.values = s.values := rfl
@[simp] theorem State.clearWakes_line : s.clearWakes.line = s.line := rfl
@[simp] theorem State.clearWakes_txPending : s.clearWakes.txPending = s.txPending := rfl
@[simp] theorem State.clearWakes_port : s.clearWakes.port = s.port := rfl
@[simp] theorem State.clearWakes_inbox : s.clearWakes.inbox = s.inbox := rfl
end

section
variable (s : State) (a : ArbState)
@[simp] theorem State.setArb_qMem : (s.setArb a).qMem = s.qMem := rfl
@[simp] theorem State.setArb_qCount : (s.setArb a).qCount = s.qCount := rfl
@[simp] theorem State.setArb_qLock : (s.setArb a).qLock = s.qLock := rfl
@[simp] theorem State.setArb_heldKey : (s.setArb a).heldKey = s.heldKey := rfl
@[simp] theorem State.setArb_stopSent : (s.setArb a).stopSent = s.stopSent := rfl
@[simp] theorem State.setArb_channel : (s.setArb a).channel = s.channel := rfl
@[simp] theorem State.setArb_wakeContinue : (s.setArb a).wakeContinue = s.wakeContinue := rfl
@[simp] theorem State.setArb_wakeFlush : (s.setArb a).wakeFlush = s.wakeFlush := rfl
@[simp] theorem State.setArb_encPhase : (s.setArb a).encPhase = s.encPhase := rfl
@[simp] theorem State.setArb_encIndex : (s.setArb a).encIndex = s.encIndex := rfl
@[simp] theorem State.setArb_encBit : (s.setArb a).encBit = s.encBit := rfl
@[simp] theorem State.setArb_encTotal : (s.setArb a).encTotal = s.encTotal := rfl
@[simp] theorem State.setArb_encDone : (s.setArb a).encDone = s.encDone := rfl
@[simp] theorem State.setArb_batchSrc : (s.setArb a).batchSrc = s.batchSrc := rfl
@[simp] theorem State.setArb_batchN : (s.setArb a).batchN = s.batchN := rfl
@[simp] theorem State.setArb_txBuf0 : (s.setArb a).txBuf0 = s.txBuf0 := rfl
@[simp] theorem State.setArb_txBuf1 : (s.setArb a).txBuf1 = s.txBuf1 := rfl
@[simp] theorem State.setArb_arbState : (s.setArb a).arbState = a := rfl
@[simp] theorem State.setArb_symbols : (s.setArb a).symbols = s.symbols := rfl
@[simp] theorem State.setArb_tokens : (s.setArb a).tokens = s.tokens := rfl
@[simp] theorem State.setArb_diags : (s.setArb a).diags = s.diags := rfl
@[simp] theorem State.setArb_decoded : (s.setArb a).decoded = s.decoded := rfl
@[simp] theorem State.setArb_values : (s.setArb a).values = s.values := rfl
@[simp] theorem State.setArb_line : (s.setArb a).line = s.line := rfl
@[simp] theorem State.setArb_txPending : (s.setArb a).txPending = s.txPending := rfl
@[simp] theorem State.setArb_port : (s.setArb a).port = s.port := rfl
@[simp] theorem State.setArb_inbox : (s.setArb a).inbox = s.inbox := rfl
end

section
variable (s : State) (b : Bool)
@[simp] theorem State.setStopSent_qMem : (s.setStopSent b).qMem = s.qMem := rfl
@[simp] theorem State.setStopSent_qCount : (s.setStopSent b).qCount = s.qCount := rfl
@[simp] theorem State.setStopSent_qLock : (s.setStopSent b).qLock = s.qLock := rfl
@[simp] theorem State.setStopSent_heldKey : (s.setStopSent b).heldKey = s.heldKey := rfl
@[simp] theorem State.setStopSent_stopSent : (s.setStopSent b).stopSent = b := rfl
@[simp] theorem State.setStopSent_channel : (s.setStopSent b).channel = s.channel := rfl
@[simp] theorem State.setStopSent_wakeContinue : (s.setStopSent b).wakeContinue = s.wakeContinue := rfl
@[simp] theorem State.setStopSent_wakeFlush : (s.setStopSent b).wakeFlush = s.wakeFlush := rfl
@[simp] theorem State.setStopSent_encPhase : (s.setStopSent b).encPhase = s.encPhase := rfl
@[simp] theorem State.setStopSent_encIndex : (s.setStopSent b).encIndex = s.encIndex := rfl
@[simp] theorem State.setStopSent_encBit : (s.setStopSent b).encBit = s.encBit := rfl
@[simp] theorem State.setStopSent_encTotal : (s.setStopSent b).encTotal = s.encTotal := rfl
@[simp] theorem State.setStopSent_encDone : (s.setStopSent b).encDone = s.encDone := rfl
@[simp] theorem State.setStopSent_batchSrc : (s.setStopSent b).batchSrc = s.batchSrc := rfl
@[simp] theorem State.setStopSent_batchN : (s.setStopSent b).batchN = s.batchN := rfl
@[simp] theorem State.setStopSent_txBuf0 : (s.setStopSent b).txBuf0 = s.txBuf0 := rfl
@[simp] theorem State.setStopSent_txBuf1 : (s.setStopSent b).txBuf1 = s.txBuf1 := rfl
@[simp] theorem State.setStopSent_arbState : (s.setStopSent b).arbState = s.arbState := rfl
@[simp] theorem State.setStopSent_symbols : (s.setStopSent b).symbols = s.symbols := rfl
@[simp] theorem State.setStopSent_tokens : (s.setStopSent b).tokens = s.tokens := rfl
@[simp] theorem State.setStopSent_diags : (s.setStopSent b).diags = s.diags := rfl
@[simp] theorem State.setStopSent_decoded : (s.setStopSent b).decoded = s.decoded := rfl
@[simp] theorem State.setStopSent_values : (s.setStopSent b).values = s.values := rfl
@[simp] theorem State.setStopSent_line : (s.setStopSent b).line = s.line := rfl
@[simp] theorem State.setStopSent_txPending : (s.setStopSent b).txPending = s.txPending := rfl
@[simp] theorem State.setStopSent_port : (s.setStopSent b).port = s.port := rfl
@[simp] theorem State.setStopSent_inbox : (s.setStopSent b).inbox = s.inbox := rfl
end

section
variable (s : State) (m : Memory) (n : Nat)
@[simp] theorem State.setQueue_qMem : (s.setQueue m n).qMem = m := rfl
@[simp] theorem State.setQueue_qCount : (s.setQueue m n).qCount = n := rfl
@[simp] theorem State.setQueue_qLock : (s.setQueue m n).qLock = s.qLock := rfl
@[simp] theorem State.setQueue_heldKey : (s.setQueue m n).heldKey = s.heldKey := rfl
@[simp] theorem State.setQueue_stopSent : (s.setQueue m n).stopSent = s.stopSent := rfl
@[simp] theorem State.setQueue_channel : (s.setQueue m n).channel = s.channel := rfl
@[simp] theorem State.setQueue_wakeContinue : (s.setQueue m n).wakeContinue = s.wakeContinue := rfl
@[simp] theorem State.setQueue_wakeFlush : (s.setQueue m n).wakeFlush = s.wakeFlush := rfl
@[simp] theorem State.setQueue_encPhase : (s.setQueue m n).encPhase = s.encPhase := rfl
@[simp] theorem State.setQueue_encIndex : (s.setQueue m n).encIndex = s.encIndex := rfl
@[simp] theorem State.setQueue_encBit : (s.setQueue m n).encBit = s.encBit := rfl
@[simp] theorem State.setQueue_encTotal : (s.setQueue m n).encTotal = s.encTotal := rfl
@[simp] theorem State.setQueue_encDone : (s.setQueue m n).encDone = s.encDone := rfl
@[simp] theorem State.setQueue_batchSrc : (s.setQueue m n).batchSrc = s.batchSrc := rfl
@[simp] theorem State.setQueue_batchN : (s.setQueue m n).batchN = s.batchN := rfl
@[simp] theorem State.setQueue_txBuf0 : (s.setQueue m n).txBuf0 = s.txBuf0 := rfl
@[simp] theorem State.setQueue_txBuf1 : (s.setQueue m n).txBuf1 = s.txBuf1 := rfl
@[simp] theorem State.setQueue_arbState : (s.setQueue m n).arbState = s.arbState := rfl
@[simp] theorem State.setQueue_symbols : (s.setQueue m n).symbols = s.symbols := rfl
@[simp] theorem State.setQueue_tokens : (s.setQueue m n).tokens = s.tokens := rfl
@[simp] theorem State.setQueue_diags : (s.setQueue m n).diags = s.diags := rfl
@[simp] theorem State.setQueue_decoded : (s.setQueue m n).decoded = s.decoded := rfl
@[simp] theorem State.setQueue_values : (s.setQueue m n).values = s.values := rfl
@[simp] theorem State.setQueue_line : (s.setQueue m n).line = s.line := rfl
@[simp] theorem State.setQueue_txPending : (s.setQueue m n).txPending = s.txPending := rfl
@[simp] theorem State.setQueue_port : (s.setQueue m n).port = s.port := rfl
@[simp] theorem State.setQueue_inbox : (s.setQueue m n).inbox = s.inbox := rfl
end

section
variable (s : State) (b : Bool)
@[simp] theorem State.setLock_qMem : (s.setLock b).qMem = s.qMem := rfl
@[simp] theorem State.setLock_qCount : (s.setLock b).qCount = s.qCount := rfl
@[simp] theorem State.setLock_qLock : (s.setLock b).qLock = b := rfl
@[simp] theorem State.setLock_heldKey : (s.setLock b).heldKey = s.heldKey := rfl
@[simp] theorem State.setLock_stopSent : (s.setLock b).stopSent = s.stopSent := rfl
@[simp] theorem State.setLock_channel : (s.setLock b).channel = s.channel := rfl
@[simp] theorem State.setLock_wakeContinue : (s.setLock b).wakeContinue = s.wakeContinue := rfl
@[simp] theorem State.setLock_wakeFlush : (s.setLock b).wakeFlush = s.wakeFlush := rfl
@[simp] theorem State.setLock_encPhase : (s.setLock b).encPhase = s.encPhase := rfl
@[simp] theorem State.setLock_encIndex : (s.setLock b).encIndex = s.encIndex := rfl
@[simp] theorem State.setLock_encBit : (s.setLock b).encBit = s.encBit := rfl
@[simp] theorem State.setLock_encTotal : (s.setLock b).encTotal = s.encTotal := rfl
@[simp] theorem State.setLock_encDone : (s.setLock b).encDone = s.encDone := rfl
@[simp] theorem State.setLock_batchSrc : (s.setLock b).batchSrc = s.batchSrc := rfl
@[simp] theorem State.setLock_batchN : (s.setLock b).batchN = s.batchN := rfl
@[simp] theorem State.setLock_txBuf0 : (s.setLock b).txBuf0 = s.txBuf0 := rfl
@[simp] theorem State.setLock_txBuf1 : (s.setLock b).txBuf1 = s.txBuf1 := rfl
@[simp] theorem State.setLock_arbState : (s.setLock b).arbState = s.arbState := rfl
@[simp] theorem State.setLock_symbols : (s.setLock b).symbols = s.symbols := rfl
@[simp] theorem State.setLock_tokens : (s.setLock b).tokens = s.tokens := rfl
@[simp] theorem State.setLock_diags : (s.setLock b).diags = s.diags := rfl
@[simp] theorem State.setLock_decoded : (s.setLock b).decoded = s.decoded := rfl
@[simp] theorem State.setLock_values : (s.setLock b).values = s.values := rfl
@[simp] theorem State.setLock_line : (s.setLock b).line = s.line := rfl
@[simp] theorem State.setLock_txPending : (s.setLock b).txPending = s.txPending := rfl
@[simp] theorem State.setLock_port : (s.setLock b).port = s.port := rfl
@[simp] theorem State.setLock_inbox : (s.setLock b).inbox = s.inbox := rfl
end

section
variable (s : State) (p q : Packet)
@[simp] theorem State.setBuffers_qMem : (s.setBuffers p q).qMem = s.qMem := rfl
@[simp] theorem State.setBuffers_qCount : (s.setBuffers p q).qCount = s.qCount := rfl
@[simp] theorem State.setBuffers_qLock : (s.setBuffers p q).qLock = s.qLock := rfl
@[simp] theorem State.setBuffers_heldKey : (s.setBuffers p q).heldKey = s.heldKey := rfl
@[simp] theorem State.setBuffers_stopSent : (s.setBuffers p q).stopSent = s.stopSent := rfl
@[simp] theorem State.setBuffers_channel : (s.setBuffers p q).channel = s.channel := rfl
@[simp] theorem State.setBuffers_wakeContinue : (s.setBuffers p q).wakeContinue = s.wakeContinue := rfl
@[simp] theorem State.setBuffers_wakeFlush : (s.setBuffers p q).wakeFlush = s.wakeFlush := rfl
@[simp] theorem State.setBuffers_encPhase : (s.setBuffers p q).encPhase = s.encPhase := rfl
@[simp] theorem State.setBuffers_encIndex : (s.setBuffers p q).encIndex = s.encIndex := rfl
@[simp] theorem State.setBuffers_encBit : (s.setBuffers p q).encBit = s.encBit := rfl
@[simp] theorem State.setBuffers_encTotal : (s.setBuffers p q).encTotal = s.encTotal := rfl
@[simp] theorem State.setBuffers_encDone : (s.setBuffers p q).encDone = s.encDone := rfl
@[simp] theorem State.setBuffers_batchSrc : (s.setBuffers p q).batchSrc = s.batchSrc := rfl
@[simp] theorem State.setBuffers_batchN : (s.setBuffers p q).batchN = s.batchN := rfl
@[simp] theorem State.setBuffers_txBuf0 : (s.setBuffers p q).txBuf0 = p := rfl
@[simp] theorem State.setBuffers_txBuf1 : (s.setBuffers p q).txBuf1 = q := rfl
@[simp] theorem State.setBuffers_arbState : (s.setBuffers p q).arbState = s.arbState := rfl
@[simp] theorem State.setBuffers_symbols : (s.setBuffers p q).symbols = s.symbols := rfl
@[simp] theorem State.setBuffers_tokens : (s.setBuffers p q).tokens = s.tokens := rfl
@[simp] theorem State.setBuffers_diags : (s.setBuffers p q).diags = s.diags := rfl
@[simp] theorem State.setBuffers_decoded : (s.setBuffers p q).decoded = s.decoded := rfl
@[simp] theorem State.setBuffers_values : (s.setBuffers p q).values = s.values := rfl
@[simp] theorem State.setBuffers_line : (s.setBuffers p q).line = s.line := rfl
@[simp] theorem State.setBuffers_txPending : (s.setBuffers p q).txPending = s.txPending := rfl
@[simp] theorem State.setBuffers_port : (s.setBuffers p q).port = s.port := rfl
@[simp] theorem State.setBuffers_inbox : (s.setBuffers p q).inbox = s.inbox := rfl
end

section
variable (s : State) (src : BatchSrc) (n : Nat)
@[simp] theorem State.present_qMem : (s.present src n).qMem = s.qMem := rfl
@[simp] theorem State.present_qCount : (s.present src n).qCount = s.qCount := rfl
@[simp] theorem State.present_qLock : (s.present src n).qLock = s.qLock := rfl
@[simp] theorem State.present_heldKey : (s.present src n).heldKey = s.heldKey := rfl
@[simp] theorem State.present_stopSent : (s.present src n).stopSent = s.stopSent := rfl
@[simp] theorem State.present_channel : (s.present src n).channel = s.channel := rfl
@[simp] theorem State.present_wakeContinue : (s.present src n).wakeContinue = s.wakeContinue := rfl
@[simp] theorem State.present_wakeFlush : (s.present src n).wakeFlush = s.wakeFlush := rfl
@[simp] theorem State.present_encPhase : (s.present src n).encPhase = s.encPhase := rfl
@[simp] theorem State.present_encIndex : (s.present src n).encIndex = s.encIndex := rfl
@[simp] theorem State.present_encBit : (s.present src n).encBit = s.encBit := rfl
@[simp] theorem State.present_encTotal : (s.present src n).encTotal = s.encTotal := rfl
@[simp] theorem State.present_encDone : (s.present src n).encDone = s.encDone := rfl
@[simp] theorem State.present_batchSrc : (s.present src n).batchSrc = src := rfl
@[simp] theorem State.present_batchN : (s.present src n).batchN = n := rfl
@[simp] theorem State.present_txBuf0 : (s.present src n).txBuf0 = s.txBuf0 := rfl
@[simp] theorem State.present_txBuf1 : (s.present src n).txBuf1 = s.txBuf1 := rfl
@[simp] theorem State.present_arbState : (s.present src n).arbState = s.arbState := rfl
@[simp] theorem State.present_symbols : (s.present src n).symbols = s.symbols := rfl
@[simp] theorem State.present_tokens : (s.present src n).tokens = s.tokens := rfl
@[simp] theorem State.present_diags : (s.present src n).diags = s.diags := rfl
@[simp] theorem State.present_decoded : (s.present src n).decoded = s.decoded := rfl
@[simp] theorem State.present_values : (s.present src n).values = s.values := rfl
@[simp] theorem State.present_line : (s.present src n).line = s.line := rfl
@[simp] theorem State.present_txPending : (s.present src n).txPending = s.txPending := rfl
@[simp] theorem State.present_port : (s.present src n).port = s.port := rfl
@[simp] theorem State.present_inbox : (s.present src n).inbox = s.inbox := rfl
end

section
variable (s : State) (k : Key)
@[simp] theorem State.setHeldKey_qMem : (s.setHeldKey k).qMem = s.qMem := rfl
@[simp] theorem State.setHeldKey_qCount : (s.setHeldKey k).qCount = s.qCount := rfl
@[simp] theorem State.setHeldKey_qLock : (s.setHeldKey k).qLock = s.qLock := rfl
@[simp] theorem State.setHeldKey_heldKey : (s.setHeldKey k).heldKey = k := rfl
@[simp] theorem State.setHeldKey_stopSent : (s.setHeldKey k).stopSent = s.stopSent := rfl
@[simp] theorem State.setHeldKey_channel : (s.setHeldKey k).channel = s.channel := rfl
@[simp] theorem State.setHeldKey_wakeContinue : (s.setHeldKey k).wakeContinue = s.wakeContinue := rfl
@[simp] theorem State.setHeldKey_wakeFlush : (s.setHeldKey k).wakeFlush = s.wakeFlush := rfl
@[simp] theorem State.setHeldKey_encPhase : (s.setHeldKey k).encPhase = s.encPhase := rfl
@[simp] theorem State.setHeldKey_encIndex : (s.setHeldKey k).encIndex = s.encIndex := rfl
@[simp] theorem State.setHeldKey_encBit : (s.setHeldKey k).encBit = s.encBit := rfl
@[simp] theorem State.setHeldKey_encTotal : (s.setHeldKey k).encTotal = s.encTotal := rfl
@[simp] theorem State.setHeldKey_encDone : (s.setHeldKey k).encDone = s.encDone := rfl
@[simp] theorem State.setHeldKey_batchSrc : (s.setHeldKey k).batchSrc = s.batchSrc := rfl
@[simp] theorem State.setHeldKey_batchN : (s.setHeldKey k).batchN = s.batchN := rfl
@[simp] theorem State.setHeldKey_txBuf0 : (s.setHeldKey k).txBuf0 = s.txBuf0 := rfl
@[simp] theorem State.setHeldKey_txBuf1 : (s.setHeldKey k).txBuf1 = s.txBuf1 := rfl
@[simp] theorem State.setHeldKey_arbState : (s.setHeldKey k).arbState = s.arbState := rfl
@[simp] theorem State.setHeldKey_symbols : (s.setHeldKey k).symbols = s.symbols := rfl
@[simp] theorem State.setHeldKey_tokens : (s.setHeldKey k).tokens = s.tokens := rfl
@[simp] theorem State.setHeldKey_diags : (s.setHeldKey k).diags = s.diags := rfl
@[simp] theorem State.setHeldKey_decoded : (s.setHeldKey k).decoded = s.decoded := rfl
@[simp] theorem State.setHeldKey_values : (s.setHeldKey k).values = s.values := rfl
@[simp] theorem State.setHeldKey_line : (s.setHeldKey k).line = s.line := rfl
@[simp] theorem State.setHeldKey_txPending : (s.setHeldKey k).txPending = s.txPending := rfl
@[simp] theorem State.setHeldKey_port : (s.setHeldKey k).port = s.port := rfl
@[simp] theorem State.setHeldKey_inbox : (s.setHeldKey k).inbox = s.inbox := rfl
end

section
variable (s : State) (c : Channel)
@[simp] theorem State.setChannel_qMem : (s.setChannel c).qMem = s.qMem := rfl
@[simp] theorem State.setChannel_qCount : (s.setChannel c).qCount = s.qCount := rfl
@[simp] theorem State.setChannel_qLock : (s.setChannel c).qLock = s.qLock := rfl
@[simp] theorem State.setChannel_heldKey : (s.setChannel c).heldKey = s.heldKey := rfl
@[simp] theorem State.setChannel_stopSent : (s.setChannel c).stopSent = s.stopSent := rfl
@[simp] theorem State.setChannel_channel : (s.setChannel c).channel = c := rfl
@[simp] theorem State.setChannel_wakeContinue : (s.setChannel c).wakeContinue = s.wakeContinue := rfl
@[simp] theorem State.setChannel_wakeFlush : (s.setChannel c).wakeFlush = s.wakeFlush := rfl
@[simp] theorem State.setChannel_encPhase : (s.setChannel c).encPhase = s.encPhase := rfl
@[simp] theorem State.setChannel_encIndex : (s.setChannel c).encIndex = s.encIndex := rfl
@[simp] theorem State.setChannel_encBit : (s.setChannel c).encBit = s.encBit := rfl
@[simp] theorem State.setChannel_encTotal : (s.setChannel c).encTotal = s.encTotal := rfl
@[simp] theorem State.setChannel_encDone : (s.setChannel c).encDone = s.encDone := rfl
@[simp] theorem State.setChannel_batchSrc : (s.setChannel c).batchSrc = s.batchSrc := rfl
@[simp] theorem State.setChannel_batchN : (s.setChannel c).batchN = s.batchN := rfl
@[simp] theorem State.setChannel_txBuf0 : (s.setChannel c).txBuf0 = s.txBuf0 := rfl
@[simp] theorem State.setChannel_txBuf1 : (s.setChannel c).txBuf1 = s.txBuf1 := rfl
@[simp] theorem State.setChannel_arbState : (s.setChannel c).arbState = s.arbState := rfl
@[simp] theorem State.setChannel_symbols : (s.setChannel c).symbols = s.symbols := rfl
@[simp] theorem State.setChannel_tokens : (s.setChannel c).tokens = s.tokens := rfl
@[simp] theorem State.setChannel_diags : (s.setChannel c).diags = s.diags := rfl
@[simp] theorem State.setChannel_decoded : (s.setChannel c).decoded = s.decoded := rfl
@[simp] theorem State.setChannel_values : (s.setChannel c).values = s.values := rfl
@[simp] theorem State.setChannel_line : (s.setChannel c).line = s.line := rfl
@[simp] theorem State.setChannel_txPending : (s.setChannel c).txPending = s.txPending := rfl
@[simp] theorem State.setChannel_port : (s.setChannel c).port = s.port := rfl
@[simp] theorem State.setChannel_inbox : (s.setChannel c).inbox = s.inbox := rfl
end

section
variable (s : State) (fs : List Frame) (es : List Diag)
@[simp] theorem State.deliver_qMem : (s.deliver fs es).qMem = s.qMem := rfl
@[simp] theorem State.deliver_qCount : (s.deliver fs es).qCount = s.qCount := rfl
@[simp] theorem State.deliver_qLock : (s.deliver fs es).qLock = s.qLock := rfl
@[simp] theorem State.deliver_heldKey : (s.deliver fs es).heldKey = s.heldKey := rfl
@[simp] theorem State.deliver_stopSent : (s.deliver fs es).stopSent = s.stopSent := rfl
@[simp] theorem State.deliver_channel : (s.deliver fs es).channel = s.channel := rfl
@[simp] theorem State.deliver_wakeContinue : (s.deliver fs es).wakeContinue = s.wakeContinue := rfl
@[simp] theorem State.deliver_wakeFlush : (s.deliver fs es).wakeFlush = s.wakeFlush := rfl
@[simp] theorem State.deliver_encPhase : (s.deliver fs es).encPhase = s.encPhase := rfl
@[simp] theorem State.deliver_encIndex : (s.deliver fs es).encIndex = s.encIndex := rfl
@[simp] theorem State.deliver_encBit : (s.deliver fs es).encBit = s.encBit := rfl
@[simp] theorem State.deliver_encTotal : (s.deliver fs es).encTotal = s.encTotal := rfl
@[simp] theorem State.deliver_encDone : (s.deliver fs es).encDone = s.encDone := rfl
@[simp] theorem State.deliver_batchSrc : (s.deliver fs es).batchSrc = s.batchSrc := rfl
@[simp] theorem State.deliver_batchN : (s.deliver fs es).batchN = s.batchN := rfl
@[simp] theorem State.deliver_txBuf0 : (s.deliver fs es).txBuf0 = s.txBuf0 := rfl
@[simp] theorem State.deliver_txBuf1 : (s.deliver fs es).txBuf1 = s.txBuf1 := rfl
@[simp] theorem State.deliver_arbState : (s.deliver fs es).arbState = s.arbState := rfl
@[simp] theorem State.deliver_symbols : (s.deliver fs es).symbols = s.symbols := rfl
@[simp] theorem State.deliver_tokens : (s.deliver fs es).tokens = s.tokens := rfl
@[simp] theorem State.deliver_diags : (s.deliver fs es).diags = s.diags ++ es := rfl
@[simp] theorem State.deliver_decoded : (s.deliver fs es).decoded = s.decoded ++ [fs] := rfl
@[simp] theorem State.deliver_values : (s.deliver fs es).values = s.values := rfl
@[simp] theorem State.deliver_line : (s.deliver fs es).line = s.line := rfl
@[simp] theorem State.deliver_txPending : (s.deliver fs es).txPending = s.txPending := rfl
@[simp] theorem State.deliver_port : (s.deliver fs es).port = s.port := rfl
@[simp] theorem State.deliver_inbox : (s.deliver fs es).inbox = s.inbox := rfl
end

section
variable (s : State) (y : Symbol) (l : List Symbol)
@[simp] theorem State.playOne_qMem : (s.playOne y l).qMem = s.qMem := rfl
@[simp] theorem State.playOne_qCount : (s.playOne y l).qCount = s.qCount := rfl
@[simp] theorem State.playOne_qLock : (s.playOne y l).qLock = s.qLock := rfl
@[simp] theorem State.playOne_heldKey : (s.playOne y l).heldKey = s.heldKey := rfl
@[simp] theorem State.playOne_stopSent : (s.playOne y l).stopSent = s.stopSent := rfl
@[simp] theorem State.playOne_channel : (s.playOne y l).channel = s.channel := rfl
@[simp] theorem State.playOne_wakeContinue : (s.playOne y l).wakeContinue = s.wakeContinue := rfl
@[simp] theorem State.playOne_wakeFlush : (s.playOne y l).wakeFlush = s.wakeFlush := rfl
@[simp] theorem State.playOne_encPhase : (s.playOne y l).encPhase = s.encPhase := rfl
@[simp] theorem State.playOne_encIndex : (s.playOne y l).encIndex = s.encIndex := rfl
@[simp] theorem State.playOne_encBit : (s.playOne y l).encBit = s.encBit := rfl
@[simp] theorem State.playOne_encTotal : (s.playOne y l).encTotal = s.encTotal := rfl
@[simp] theorem State.playOne_encDone : (s.playOne y l).encDone = s.encDone := rfl
@[simp] theorem State.playOne_batchSrc : (s.playOne y l).batchSrc = s.batchSrc := rfl
@[simp] theorem State.playOne_batchN : (s.playOne y l).batchN = s.batchN := rfl
@[simp] theorem State.playOne_txBuf0 : (s.playOne y l).txBuf0 = s.txBuf0 := rfl
@[simp] theorem State.playOne_txBuf1 : (s.playOne y l).txBuf1 = s.txBuf1 := rfl
@[simp] theorem State.playOne_arbState : (s.playOne y l).arbState = s.arbState := rfl
@[simp] theorem State.playOne_symbols : (s.playOne y l).symbols = s.symbols := rfl
@[simp] theorem State.playOne_tokens : (s.playOne y l).tokens = s.tokens := rfl
@[simp] theorem State.playOne_diags : (s.playOne y l).diags = s.diags := rfl
@[simp] theorem State.playOne_decoded : (s.playOne y l).decoded = s.decoded := rfl
@[simp] theorem State.playOne_values : (s.playOne y l).values = s.values := rfl
@[simp] theorem State.playOne_line : (s.playOne y l).line = s.line ++ waveform [y] := rfl
@[simp] theorem State.playOne_txPending : (s.playOne y l).txPending = l := rfl
@[simp] theorem State.playOne_port : (s.playOne y l).port = s.port := rfl
@[simp] theorem State.playOne_inbox : (s.playOne y l).inbox = s.inbox := rfl
end

section
variable (s : State) (l : List Command)
@[simp] theorem State.setPort_qMem : (s.setPort l).qMem = s.qMem := rfl
@[simp] theorem State.setPort_qCount : (s.setPort l).qCount = s.qCount := rfl
@[simp] theorem State.setPort_qLock : (s.setPort l).qLock = s.qLock := rfl
@[simp] theorem State.setPort_heldKey : (s.setPort l).heldKey = s.heldKey := rfl
@[simp] theorem State.setPort_stopSent : (s.setPort l).stopSent = s.stopSent := rfl
@[simp] theorem State.setPort_channel : (s.setPort l).channel = s.channel := rfl
@[simp] theorem State.setPort_wakeContinue : (s.setPort l).wakeContinue = s.wakeContinue := rfl
@[simp] theorem State.setPort_wakeFlush : (s.setPort l).wakeFlush = s.wakeFlush := rfl
@[simp] theorem State.setPort_encPhase : (s.setPort l).encPhase = s.encPhase := rfl
@[simp] theorem State.setPort_encIndex : (s.setPort l).encIndex = s.encIndex := rfl
@[simp] theorem State.setPort_encBit : (s.setPort l).encBit = s.encBit := rfl
@[simp] theorem State.setPort_encTotal : (s.setPort l).encTotal = s.encTotal := rfl
@[simp] theorem State.setPort_encDone : (s.setPort l).encDone = s.encDone := rfl
@[simp] theorem State.setPort_batchSrc : (s.setPort l).batchSrc = s.batchSrc := rfl
@[simp] theorem State.setPort_batchN : (s.setPort l).batchN = s.batchN := rfl
@[simp] theorem State.setPort_txBuf0 : (s.setPort l).txBuf0 = s.txBuf0 := rfl
@[simp] theorem State.setPort_txBuf1 : (s.setPort l).txBuf1 = s.txBuf1 := rfl
@[simp] theorem State.setPort_arbState : (s.setPort l).arbState = s.arbState := rfl
@[simp] theorem State.setPort_symbols : (s.setPort l).symbols = s.symbols := rfl
@[simp] theorem State.setPort_tokens : (s.setPort l).tokens = s.tokens := rfl
@[simp] theorem State.setPort_diags : (s.setPort l).diags = s.diags := rfl
@[simp] theorem State.setPort_decoded : (s.setPort l).decoded = s.decoded := rfl
@[simp] theorem State.setPort_values : (s.setPort l).values = s.values := rfl
@[simp] theorem State.setPort_line : (s.setPort l).line = s.line := rfl
@[simp] theorem State.setPort_txPending : (s.setPort l).txPending = s.txPending := rfl
@[simp] theorem State.setPort_port : (s.setPort l).port = l := rfl
@[simp] theorem State.setPort_inbox : (s.setPort l).inbox = s.inbox := rfl
end

section
variable (s : State) (l : List Event)
@[simp] theorem State.setInbox_qMem : (s.setInbox l).qMem = s.qMem := rfl
@[simp] theorem State.setInbox_qCount : (s.setInbox l).qCount = s.qCount := rfl
@[simp] theorem State.setInbox_qLock : (s.setInbox l).qLock = s.qLock := rfl
@[simp] theorem State.setInbox_heldKey : (s.setInbox l).heldKey = s.heldKey := rfl
@[simp] theorem State.setInbox_stopSent : (s.setInbox l).stopSent = s.stopSent := rfl
@[simp] theorem State.setInbox_channel : (s.setInbox l).channel = s.channel := rfl
@[simp] theorem State.setInbox_wakeContinue : (s.setInbox l).wakeContinue = s.wakeContinue := rfl
@[simp] theorem State.setInbox_wakeFlush : (s.setInbox l).wakeFlush = s.wakeFlush := rfl
@[simp] theorem State.setInbox_encPhase : (s.setInbox l).encPhase = s.encPhase := rfl
@[simp] theorem State.setInbox_encIndex : (s.setInbox l).encIndex = s.encIndex := rfl
@[simp] theorem State.setInbox_encBit : (s.setInbox l).encBit = s.encBit := rfl
@[simp] theorem State.setInbox_encTotal : (s.setInbox l).encTotal = s.encTotal := rfl
@[simp] theorem State.setInbox_encDone : (s.setInbox l).encDone = s.encDone := rfl
@[simp] theorem State.setInbox_batchSrc : (s.setInbox l).batchSrc = s.batchSrc := rfl
@[simp] theorem State.setInbox_batchN : (s.setInbox l).batchN = s.batchN := rfl
@[simp] theorem State.setInbox_txBuf0 : (s.setInbox l).txBuf0 = s.txBuf0 := rfl
@[simp] theorem State.setInbox_txBuf1 : (s.setInbox l).txBuf1 = s.txBuf1 := rfl
@[simp] theorem State.setInbox_arbState : (s.setInbox l).arbState = s.arbState := rfl
@[simp] theorem State.setInbox_symbols : (s.setInbox l).symbols = s.symbols := rfl
@[simp] theorem State.setInbox_tokens : (s.setInbox l).tokens = s.tokens := rfl
@[simp] theorem State.setInbox_diags : (s.setInbox l).diags = s.diags := rfl
@[simp] theorem State.setInbox_decoded : (s.setInbox l).decoded = s.decoded := rfl
@[simp] theorem State.setInbox_values : (s.setInbox l).values = s.values := rfl
@[simp] theorem State.setInbox_line : (s.setInbox l).line = s.line := rfl
@[simp] theorem State.setInbox_txPending : (s.setInbox l).txPending = s.txPending := rfl
@[simp] theorem State.setInbox_port : (s.setInbox l).port = s.port := rfl
@[simp] theorem State.setInbox_inbox : (s.setInbox l).inbox = l := rfl
end

section
variable (s : State)
@[simp] theorem State.encReset_qMem : s.encReset.qMem = s.qMem := rfl
@[simp] theorem State.encReset_qCount : s.encReset.qCount = s.qCount := rfl
@[simp] theorem State.encReset_qLock : s.encReset.qLock = s.qLock := rfl
@[simp] theorem State.encReset_heldKey : s.encReset.heldKey = s.heldKey := rfl
@[simp] theorem State.encReset_stopSent : s.encReset.stopSent = s.stopSent := rfl
@[simp] theorem State.encReset_channel : s.encReset.channel = s.channel := rfl
@[simp] theorem State.encReset_wakeContinue : s.encReset.wakeContinue = s.wakeContinue := rfl
@[simp] theorem State.encReset_wakeFlush : s.encReset.wakeFlush = s.wakeFlush := rfl
@[simp] theorem State.encReset_encPhase : s.encReset.encPhase = .start := rfl
@[simp] theorem State.encReset_encIndex : s.encReset.encIndex = 0 := rfl
@[simp] theorem State.encReset_encBit : s.encReset.encBit = 0 := rfl
@[simp] theorem State.encReset_encTotal : s.encReset.encTotal = s.encTotal := rfl
@[simp] theorem State.encReset_encDone : s.encReset.encDone = false := rfl
@[simp] theorem State.encReset_batchSrc : s.encReset.batchSrc = s.batchSrc := rfl
@[simp] theorem State.encReset_batchN : s.encReset.batchN = s.batchN := rfl
@[simp] theorem State.encReset_txBuf0 : s.encReset.txBuf0 = s.txBuf0 := rfl
@[simp] theorem State.encReset_txBuf1 : s.encReset.txBuf1 = s.txBuf1 := rfl
@[simp] theorem State.encReset_arbState : s.encReset.arbState = s.arbState := rfl
@[simp] theorem State.encReset_symbols : s.encReset.symbols = s.symbols := rfl
@[simp] theorem State.encReset_tokens : s.encReset.tokens = s.tokens := rfl
@[simp] theorem State.encReset_diags : s.encReset.diags = s.diags := rfl
@[simp] theorem State.encReset_decoded : s.encReset.decoded = s.decoded := rfl
@[simp] theorem State.encReset_values : s.encReset.values = s.values := rfl
@[simp] theorem State.encReset_line : s.encReset.line = s.line := rfl
@[simp] theorem State.encReset_txPending : s.encReset.txPending = s.txPending := rfl
@[simp] theorem State.encReset_port : s.encReset.port = s.port := rfl
@[simp] theorem State.encReset_inbox : s.encReset.inbox = s.inbox := rfl
end

section
variable (s : State) (ph : EncPhase) (i b : Nat)
@[simp] theorem State.setCursor_qMem : (s.setCursor ph i b).qMem = s.qMem := rfl
@[simp] theorem State.setCursor_qCount : (s.setCursor ph i b).qCount = s.qCount := rfl
@[simp] theorem State.setCursor_qLock : (s.setCursor ph i b).qLock = s.qLock := rfl
@[simp] theorem State.setCursor_heldKey : (s.setCursor ph i b).heldKey = s.heldKey := rfl
@[simp] theorem State.setCursor_stopSent : (s.setCursor ph i b).stopSent = s.stopSent := rfl
@[simp] theorem State.setCursor_channel : (s.setCursor ph i b).channel = s.channel := rfl
@[simp] theorem State.setCursor_wakeContinue : (s.setCursor ph i b).wakeContinue = s.wakeContinue := rfl
@[simp] theorem State.setCursor_wakeFlush : (s.setCursor ph i b).wakeFlush = s.wakeFlush := rfl
@[simp] theorem State.setCursor_encPhase : (s.setCursor ph i b).encPhase = ph := rfl
@[simp] theorem State.setCursor_encIndex : (s.setCursor ph i b).encIndex = i := rfl
@[simp] theorem State.setCursor_encBit : (s.setCursor ph i b).encBit = b := rfl
@[simp] theorem State.setCursor_encTotal : (s.setCursor ph i b).encTotal = s.encTotal := rfl
@[simp] theorem State.setCursor_encDone : (s.setCursor ph i b).encDone = s.encDone := rfl
@[simp] theorem State.setCursor_batchSrc : (s.setCursor ph i b).batchSrc = s.batchSrc := rfl
@[simp] theorem State.setCursor_batchN : (s.setCursor ph i b).batchN = s.batchN := rfl
@[simp] theorem State.setCursor_txBuf0 : (s.setCursor ph i b).txBuf0 = s.txBuf0 := rfl
@[simp] theorem State.setCursor_txBuf1 : (s.setCursor ph i b).txBuf1 = s.txBuf1 := rfl
@[simp] theorem State.setCursor_arbState : (s.setCursor ph i b).arbState = s.arbState := rfl
@[simp] theorem State.setCursor_symbols : (s.setCursor ph i b).symbols = s.symbols := rfl
@[simp] theorem State.setCursor_tokens : (s.setCursor ph i b).tokens = s.tokens := rfl
@[simp] theorem State.setCursor_diags : (s.setCursor ph i b).diags = s.diags := rfl
@[simp] theorem State.setCursor_decoded : (s.setCursor ph i b).decoded = s.decoded := rfl
@[simp] theorem State.setCursor_values : (s.setCursor ph i b).values = s.values := rfl
@[simp] theorem State.setCursor_line : (s.setCursor ph i b).line = s.line := rfl
@[simp] theorem State.setCursor_txPending : (s.setCursor ph i b).txPending = s.txPending := rfl
@[simp] theorem State.setCursor_port : (s.setCursor ph i b).port = s.port := rfl
@[simp] theorem State.setCursor_inbox : (s.setCursor ph i b).inbox = s.inbox := rfl
end

section
variable (s : State)
@[simp] theorem State.completeBatch_qMem : s.completeBatch.qMem = s.qMem := rfl
@[simp] theorem State.completeBatch_qCount : s.completeBatch.qCount = s.qCount := rfl
@[simp] theorem State.completeBatch_qLock : s.completeBatch.qLock = s.qLock := rfl
@[simp] theorem State.completeBatch_heldKey : s.completeBatch.heldKey = s.heldKey := rfl
@[simp] theorem State.completeBatch_stopSent : s.completeBatch.stopSent = s.stopSent := rfl
@[simp] theorem State.completeBatch_channel : s.completeBatch.channel = s.channel := rfl
@[simp] theorem State.completeBatch_wakeContinue : s.completeBatch.wakeContinue = s.wakeContinue := rfl
@[simp] theorem State.completeBatch_wakeFlush : s.completeBatch.wakeFlush = s.wakeFlush := rfl
@[simp] theorem State.completeBatch_encPhase : s.completeBatch.encPhase = .start := rfl
@[simp] theorem State.completeBatch_encIndex : s.completeBatch.encIndex = 0 := rfl
@[simp] theorem State.completeBatch_encBit : s.completeBatch.encBit = s.encBit := rfl
@[simp] theorem State.completeBatch_encTotal : s.completeBatch.encTotal = s.encTotal + BitVec.ofNat 32 s.batchN := rfl
@[simp] theorem State.completeBatch_encDone : s.completeBatch.encDone = true := rfl
@[simp] theorem State.completeBatch_batchSrc : s.completeBatch.batchSrc = s.batchSrc := rfl
@[simp] theorem State.completeBatch_batchN : s.completeBatch.batchN = s.batchN := rfl
@[simp] theorem State.completeBatch_txBuf0 : s.completeBatch.txBuf0 = s.txBuf0 := rfl
@[simp] theorem State.completeBatch_txBuf1 : s.completeBatch.txBuf1 = s.txBuf1 := rfl
@[simp] theorem State.completeBatch_arbState : s.completeBatch.arbState = s.arbState := rfl
@[simp] theorem State.completeBatch_symbols : s.completeBatch.symbols = s.symbols := rfl
@[simp] theorem State.completeBatch_tokens : s.completeBatch.tokens = s.tokens := rfl
@[simp] theorem State.completeBatch_diags : s.completeBatch.diags = s.diags := rfl
@[simp] theorem State.completeBatch_decoded : s.completeBatch.decoded = s.decoded := rfl
@[simp] theorem State.completeBatch_values : s.completeBatch.values = s.values := rfl
@[simp] theorem State.completeBatch_line : s.completeBatch.line = s.line := rfl
@[simp] theorem State.completeBatch_txPending : s.completeBatch.txPending = s.txPending := rfl
@[simp] theorem State.completeBatch_port : s.completeBatch.port = s.port := rfl
@[simp] theorem State.completeBatch_inbox : s.completeBatch.inbox = s.inbox := rfl
end

section
variable (s : State) (l : List Symbol)
@[simp] theorem State.handOver_qMem : (s.handOver l).qMem = s.qMem := rfl
@[simp] theorem State.handOver_qCount : (s.handOver l).qCount = s.qCount := rfl
@[simp] theorem State.handOver_qLock : (s.handOver l).qLock = s.qLock := rfl
@[simp] theorem State.handOver_heldKey : (s.handOver l).heldKey = s.heldKey := rfl
@[simp] theorem State.handOver_stopSent : (s.handOver l).stopSent = s.stopSent := rfl
@[simp] theorem State.handOver_channel : (s.handOver l).channel = s.channel := rfl
@[simp] theorem State.handOver_wakeContinue : (s.handOver l).wakeContinue = s.wakeContinue := rfl
@[simp] theorem State.handOver_wakeFlush : (s.handOver l).wakeFlush = s.wakeFlush := rfl
@[simp] theorem State.handOver_encPhase : (s.handOver l).encPhase = s.encPhase := rfl
@[simp] theorem State.handOver_encIndex : (s.handOver l).encIndex = s.encIndex := rfl
@[simp] theorem State.handOver_encBit : (s.handOver l).encBit = s.encBit := rfl
@[simp] theorem State.handOver_encTotal : (s.handOver l).encTotal = s.encTotal := rfl
@[simp] theorem State.handOver_encDone : (s.handOver l).encDone = s.encDone := rfl
@[simp] theorem State.handOver_batchSrc : (s.handOver l).batchSrc = s.batchSrc := rfl
@[simp] theorem State.handOver_batchN : (s.handOver l).batchN = s.batchN := rfl
@[simp] theorem State.handOver_txBuf0 : (s.handOver l).txBuf0 = s.txBuf0 := rfl
@[simp] theorem State.handOver_txBuf1 : (s.handOver l).txBuf1 = s.txBuf1 := rfl
@[simp] theorem State.handOver_arbState : (s.handOver l).arbState = s.arbState := rfl
@[simp] theorem State.handOver_symbols : (s.handOver l).symbols = s.symbols ++ l := rfl
@[simp] theorem State.handOver_tokens : (s.handOver l).tokens = s.tokens := rfl
@[simp] theorem State.handOver_diags : (s.handOver l).diags = s.diags := rfl
@[simp] theorem State.handOver_decoded : (s.handOver l).decoded = s.decoded := rfl
@[simp] theorem State.handOver_values : (s.handOver l).values = s.values := rfl
@[simp] theorem State.handOver_line : (s.handOver l).line = s.line := rfl
@[simp] theorem State.handOver_txPending : (s.handOver l).txPending = s.txPending ++ l := rfl
@[simp] theorem State.handOver_port : (s.handOver l).port = s.port := rfl
@[simp] theorem State.handOver_inbox : (s.handOver l).inbox = s.inbox := rfl
end

section
variable (s : State) (r : Token)
@[simp] theorem State.settleLine_qMem : (s.settleLine r).qMem = s.qMem := by cases r <;> rfl
@[simp] theorem State.settleLine_qCount : (s.settleLine r).qCount = s.qCount := by cases r <;> rfl
@[simp] theorem State.settleLine_qLock : (s.settleLine r).qLock = s.qLock := by cases r <;> rfl
@[simp] theorem State.settleLine_heldKey : (s.settleLine r).heldKey = s.heldKey := by cases r <;> rfl
@[simp] theorem State.settleLine_stopSent : (s.settleLine r).stopSent = s.stopSent := by cases r <;> rfl
@[simp] theorem State.settleLine_channel : (s.settleLine r).channel = s.channel := by cases r <;> rfl
@[simp] theorem State.settleLine_wakeContinue : (s.settleLine r).wakeContinue = s.wakeContinue := by cases r <;> rfl
@[simp] theorem State.settleLine_wakeFlush : (s.settleLine r).wakeFlush = s.wakeFlush := by cases r <;> rfl
@[simp] theorem State.settleLine_encPhase : (s.settleLine r).encPhase = s.encPhase := by cases r <;> rfl
@[simp] theorem State.settleLine_encIndex : (s.settleLine r).encIndex = s.encIndex := by cases r <;> rfl
@[simp] theorem State.settleLine_encBit : (s.settleLine r).encBit = s.encBit := by cases r <;> rfl
@[simp] theorem State.settleLine_encTotal : (s.settleLine r).encTotal = s.encTotal := by cases r <;> rfl
@[simp] theorem State.settleLine_encDone : (s.settleLine r).encDone = s.encDone := by cases r <;> rfl
@[simp] theorem State.settleLine_batchSrc : (s.settleLine r).batchSrc = s.batchSrc := by cases r <;> rfl
@[simp] theorem State.settleLine_batchN : (s.settleLine r).batchN = s.batchN := by cases r <;> rfl
@[simp] theorem State.settleLine_txBuf0 : (s.settleLine r).txBuf0 = s.txBuf0 := by cases r <;> rfl
@[simp] theorem State.settleLine_txBuf1 : (s.settleLine r).txBuf1 = s.txBuf1 := by cases r <;> rfl
@[simp] theorem State.settleLine_arbState : (s.settleLine r).arbState = s.arbState := by cases r <;> rfl
@[simp] theorem State.settleLine_symbols : (s.settleLine r).symbols = s.symbols := by cases r <;> rfl
@[simp] theorem State.settleLine_tokens : (s.settleLine r).tokens = s.tokens := by cases r <;> rfl
@[simp] theorem State.settleLine_diags : (s.settleLine r).diags = s.diags := by cases r <;> rfl
@[simp] theorem State.settleLine_decoded : (s.settleLine r).decoded = s.decoded := by cases r <;> rfl
@[simp] theorem State.settleLine_values : (s.settleLine r).values = s.values := by cases r <;> rfl
@[simp] theorem State.settleLine_port : (s.settleLine r).port = s.port := by cases r <;> rfl
@[simp] theorem State.settleLine_inbox : (s.settleLine r).inbox = s.inbox := by cases r <;> rfl
@[simp] theorem State.settleLine_txPending : (s.settleLine r).txPending = [] := by cases r <;> rfl
theorem State.settleLine_line_done : (s.settleLine .done).line = s.line ++ waveform s.txPending := rfl
theorem State.settleLine_line_failed (h : r ≠ .done) : (s.settleLine r).line = s.line := by
  cases r <;> first | exact absurd rfl h | rfl
end

end Sys2Proof.Machine
end

