-- ==== Sys2Proof/Laws/Memory.lean ====
section
/-! SUPPORT. The laws of the queue memory: read after write, writes leave other places alone, every operation keeps the
canonical form, and what writing or rebuilding several entries does. -/

namespace Sys2Proof.Machine

/-! ### Bytes -/

theorem Memory.readByte_writeByte_same (m : Memory) (a : Nat) (b : Byte) :
    (m.writeByte a b).readByte a = some b := by
  induction m with
  | nil => simp [Memory.writeByte, Memory.readByte]
  | cons cell rest ih =>
    obtain ⟨x, v⟩ := cell
    simp only [Memory.writeByte]
    split
    · simp [Memory.readByte]
    · split
      · simp [Memory.readByte]
      · next h => simp [Memory.readByte, h, ih]

theorem Memory.readByte_writeByte_other (m : Memory) (a a' : Nat) (b : Byte) (h : a' ≠ a) :
    (m.writeByte a b).readByte a' = m.readByte a' := by
  induction m with
  | nil => simp [Memory.writeByte, Memory.readByte, h]
  | cons cell rest ih =>
    obtain ⟨x, v⟩ := cell
    simp only [Memory.writeByte]
    split
    · simp [Memory.readByte, h]
    · split
      · next hx => subst hx; simp [Memory.readByte, h]
      · simp [Memory.readByte, ih]

theorem Memory.mem_writeByte {m : Memory} {a : Nat} {b : Byte} {cell : Host.Cell}
    (h : cell ∈ m.writeByte a b) : cell = (a, b) ∨ cell ∈ m := by
  induction m with
  | nil => simpa [Memory.writeByte] using h
  | cons c rest ih =>
    obtain ⟨x, v⟩ := c
    simp only [Memory.writeByte] at h
    split at h
    · simpa using h
    · split at h
      · rcases List.mem_cons.mp h with h | h
        · exact .inl h
        · exact .inr (List.mem_cons_of_mem _ h)
      · rcases List.mem_cons.mp h with h | h
        · exact .inr (by simp [h])
        · exact (ih h).imp_right (List.mem_cons_of_mem _)

/-- A byte written inside the address space keeps the canonical form. -/
theorem Memory.writeByte_wf {m : Memory} {a : Nat} {b : Byte} (h : m.wf)
    (ha : a < 2 * Config.queueCapacity) : (m.writeByte a b).wf := by
  refine ⟨?_, fun cell hc => ?_⟩
  · have hp := h.1
    clear h
    induction m with
    | nil => simp [Memory.writeByte]
    | cons c rest ih =>
      obtain ⟨x, v⟩ := c
      obtain ⟨hx, hr⟩ := List.pairwise_cons.mp hp
      simp only [Memory.writeByte]
      split
      · next hax =>
        refine List.pairwise_cons.mpr ⟨fun y hy => ?_, hp⟩
        rcases List.mem_cons.mp hy with rfl | hy
        · exact hax
        · exact Nat.lt_trans hax (hx y hy)
      · split
        · next hax => subst hax; exact List.pairwise_cons.mpr ⟨hx, hr⟩
        · next h1 h2 =>
          refine List.pairwise_cons.mpr ⟨fun y hy => ?_, ih hr⟩
          rcases Memory.mem_writeByte hy with rfl | hy
          · exact Nat.lt_of_le_of_ne (Nat.le_of_not_lt h1) (Ne.symm h2)
          · exact hx y hy
  · rcases Memory.mem_writeByte hc with rfl | hc
    · exact ha
    · exact h.2 cell hc

/-! ### Entries -/

theorem hi_lo_split (v : BitVec 16) : v.extractLsb' 8 8 ++ v.extractLsb' 0 8 = v := by
  ext i hi
  simp only [BitVec.getElem_append, BitVec.getElem_extractLsb']
  split
  · simp [BitVec.getLsbD_eq_getElem hi]
  · next h =>
    have : 8 + (i - 8) = i := by omega
    rw [this, BitVec.getLsbD_eq_getElem hi]

theorem writeEntry_ok {m : Memory} {i : Nat} (v : Packet) (h : i < 128) :
    writeEntry m i v =
      .ok ((m.writeByte (2 * i) (v.extractLsb' 0 8)).writeByte (2 * i + 1) (v.extractLsb' 8 8)) := by
  simp [writeEntry, Config.queueCapacity, h]

/-- What a written entry does: it stands at an index below 128, reads back, leaves every other byte alone and keeps the form. -/
theorem writeEntry_cases {m m' : Memory} {i : Nat} {v : Packet} (h : writeEntry m i v = .ok m') :
    i < 128 ∧ readEntry m' i = .ok v ∧
      (∀ a, a ≠ 2 * i → a ≠ 2 * i + 1 → m'.readByte a = m.readByte a) ∧ (m.wf → m'.wf) := by
  by_cases hi : i < 128
  · rw [writeEntry_ok v hi] at h
    injection h with h
    subst h
    refine ⟨hi, ?_, fun a h0 h1 => ?_, fun hm => ?_⟩
    · have h0 : 2 * i ≠ 2 * i + 1 := by omega
      simp only [readEntry, Config.queueCapacity, hi, if_true, Memory.readByte_writeByte_other _ _ _ _ h0,
        Memory.readByte_writeByte_same, hi_lo_split]
    · rw [Memory.readByte_writeByte_other _ _ _ _ h1, Memory.readByte_writeByte_other _ _ _ _ h0]
    · refine Memory.writeByte_wf (Memory.writeByte_wf hm ?_) ?_ <;> simp only [Config.queueCapacity] <;> omega
  · simp [writeEntry, Config.queueCapacity, hi] at h

/-- An entry depends on its two bytes only. -/
theorem readEntry_congr {m m' : Memory} {i : Nat} (h0 : m'.readByte (2 * i) = m.readByte (2 * i))
    (h1 : m'.readByte (2 * i + 1) = m.readByte (2 * i + 1)) : readEntry m' i = readEntry m i := by
  simp [readEntry, h0, h1]

theorem readEntry_writeEntry_other {m m' : Memory} {i j : Nat} {v : Packet} (h : writeEntry m i v = .ok m')
    (hij : j ≠ i) : readEntry m' j = readEntry m j := by
  obtain ⟨-, -, hf, -⟩ := writeEntry_cases h
  exact readEntry_congr (hf _ (by omega) (by omega)) (hf _ (by omega) (by omega))

theorem readEntry_lt {m : Memory} {i : Nat} {p : Packet} (h : readEntry m i = .ok p) : i < 128 := by
  by_cases hi : i < 128
  · exact hi
  · simp [readEntry, Config.queueCapacity, hi] at h

/-! ### Several entries -/

theorem writeEntries_ok (m : Memory) (i : Nat) (ps : List Packet) (h : i + ps.length ≤ 128) :
    ∃ m', writeEntries m i ps = .ok m' := by
  induction ps generalizing m i with
  | nil => exact ⟨m, rfl⟩
  | cons p rest ih =>
    simp only [List.length_cons] at h
    simp only [writeEntries, writeEntry_ok p (by omega : i < 128)]
    exact ih _ _ (by omega)

/-- What writing packets from entry `i` up does: each reads back, every other byte is left alone, the form is kept. -/
theorem writeEntries_cases {m m' : Memory} {i : Nat} {ps : List Packet} (h : writeEntries m i ps = .ok m') :
    (∀ (j : Nat) (hj : j < ps.length), readEntry m' (i + j) = .ok ps[j]) ∧
      (∀ a, a < 2 * i ∨ 2 * (i + ps.length) ≤ a → m'.readByte a = m.readByte a) ∧ (m.wf → m'.wf) := by
  induction ps generalizing m i with
  | nil =>
    injection h with h
    subst h
    exact ⟨fun j hj => by simp at hj, fun _ _ => rfl, id⟩
  | cons p rest ih =>
    simp only [writeEntries] at h
    split at h
    · cases h
    · next m1 h1 =>
      obtain ⟨hi, hr, hf, hw⟩ := writeEntry_cases h1
      obtain ⟨jr, jf, jw⟩ := ih h
      refine ⟨fun j hj => ?_, fun a ha => ?_, fun hm => jw (hw hm)⟩
      · cases j with
        | zero =>
          show readEntry m' i = .ok p
          rw [← hr]
          exact readEntry_congr (jf _ (.inl (by omega))) (jf _ (.inl (by omega)))
        | succ j =>
          have := jr j (by simpa using hj)
          rw [show i + (j + 1) = i + 1 + j by omega]
          simpa using this
      · simp only [List.length_cons] at ha
        rw [jf a (by omega), hf a (by omega) (by omega)]

theorem readEntry_writeEntries_other {m m' : Memory} {i j : Nat} {ps : List Packet}
    (h : writeEntries m i ps = .ok m') (hj : j < i ∨ i + ps.length ≤ j) : readEntry m' j = readEntry m j := by
  obtain ⟨-, hf, -⟩ := writeEntries_cases h
  exact readEntry_congr (hf _ (by omega)) (hf _ (by omega))

theorem rebuildEntries_ok (c : Channel) (n i : Nat) (m : Memory)
    (h : ∀ j, i ≤ j → j < i + n → ∃ p, readEntry m j = .ok p) : ∃ m', rebuildEntries c n i m = .ok m' := by
  induction n generalizing i m with
  | zero => exact ⟨m, rfl⟩
  | succ n ih =>
    obtain ⟨p, hp⟩ := h i (Nat.le_refl _) (by omega)
    simp only [rebuildEntries, hp, writeEntry_ok _ (readEntry_lt hp)]
    refine ih _ _ fun j h1 h2 => ?_
    rw [readEntry_writeEntry_other (writeEntry_ok _ (readEntry_lt hp)) (by omega)]
    exact h j (by omega) (by omega)

/-- What the rewrite of a flush does: each of the `n` entries from `i` up was readable and is replaced by
`ENCODE(KEY(entry), c)`, every other byte is left alone, the form is kept (44_arbiter.md R190). -/
theorem rebuildEntries_cases {c : Channel} {n i : Nat} {m m' : Memory} (h : rebuildEntries c n i m = .ok m') :
    (∀ j, i ≤ j → j < i + n →
        ∃ p, readEntry m j = .ok p ∧ readEntry m' j = .ok (encodePacket (keyField p) c)) ∧
      (∀ a, a < 2 * i ∨ 2 * (i + n) ≤ a → m'.readByte a = m.readByte a) ∧ (m.wf → m'.wf) := by
  induction n generalizing i m with
  | zero =>
    injection h with h
    subst h
    exact ⟨fun j h1 h2 => by omega, fun _ _ => rfl, id⟩
  | succ n ih =>
    simp only [rebuildEntries] at h
    split at h
    · cases h
    · next p hp =>
      split at h
      · cases h
      · next m1 h1 =>
        obtain ⟨hi, hr, hf, hw⟩ := writeEntry_cases h1
        obtain ⟨jr, jf, jw⟩ := ih h
        refine ⟨fun j h1' h2' => ?_, fun a ha => ?_, fun hm => jw (hw hm)⟩
        · rcases Nat.eq_or_lt_of_le h1' with rfl | hlt
          · refine ⟨p, hp, ?_⟩
            rw [← hr]
            exact readEntry_congr (jf _ (.inl (by omega))) (jf _ (.inl (by omega)))
          · obtain ⟨q, hq, hq'⟩ := jr j hlt (by omega)
            rw [readEntry_writeEntry_other h1 (by omega)] at hq
            exact ⟨q, hq, hq'⟩
        · rw [jf a (by omega), hf a (by omega) (by omega)]

end Sys2Proof.Machine
end

