-- ==== Sys2Proof/Laws/Ops.lean ====
section
/-! SUPPORT. One lemma per shared operation of Machine/Ops.lean: if it answers a next state, then everything that can be the
case. Later proofs cite these instead of unfolding the operation. -/

namespace Sys2Proof.Machine

/-! ### What an observation depends on -/

theorem outstanding_iff (s : State) :
    outstanding s = true ↔ s.arbState = .txHeld ∨ s.arbState = .txStop ∨ s.arbState = .txFlush := by
  unfold outstanding
  cases s.arbState <;> simp

theorem outstanding_congr {s t : State} (h : t.arbState = s.arbState) : outstanding t = outstanding s := by
  simp [outstanding, h]

theorem readBatch_congr {s t : State} (hn : t.batchN = s.batchN) (hs : t.batchSrc = s.batchSrc)
    (h0 : t.txBuf0 = s.txBuf0) (h1 : t.txBuf1 = s.txBuf1) (hm : t.qMem = s.qMem) (i : Nat) :
    readBatch t i = readBatch s i := by
  simp [readBatch, hn, hs, h0, h1, hm]

theorem readBatch_lt {s : State} {i : Nat} {p : Packet} (h : readBatch s i = .ok p) : i < s.batchN := by
  by_cases hi : i < s.batchN
  · exact hi
  · simp [readBatch, hi] at h

theorem readBatch_queue {s : State} {i : Nat} (hs : s.batchSrc = .queue) (hi : i < s.batchN) :
    readBatch s i = readEntry s.qMem i := by
  simp [readBatch, hs, hi]

theorem readBatch_buf_zero {s : State} (hs : s.batchSrc = .buf) (hi : 0 < s.batchN) :
    readBatch s 0 = .ok s.txBuf0 := by
  simp [readBatch, hs, hi]

theorem readBatch_buf_one {s : State} (hs : s.batchSrc = .buf) (hi : 1 < s.batchN) :
    readBatch s 1 = .ok s.txBuf1 := by
  simp [readBatch, hs, hi]

/-! ### The encoder -/

/-- What one round of DRIVE's loop can do (41_pulse_encoder.md R117). -/
theorem beat_cases {s s' : State} {sym : Symbol} {last : Bool} (h : beat s = .ok (sym, last, s')) :
    ∃ p, readBatch s s.encIndex = .ok p ∧
      ((s.encPhase = .start ∧ sym = startSymbol ∧ last = false ∧ s' = s.setCursor .word s.encIndex 0) ∨
       (s.encPhase = .word ∧ s.encBit = 15 ∧ sym = bitSym (wireBit p s.encBit) ∧ last = false ∧
          s' = s.setCursor .fin s.encIndex 0) ∨
       (s.encPhase = .word ∧ s.encBit ≠ 15 ∧ sym = bitSym (wireBit p s.encBit) ∧ last = false ∧
          s' = s.setCursor .word s.encIndex (s.encBit + 1)) ∨
       (s.encPhase = .fin ∧ s.encIndex + 1 = s.batchN ∧ sym = endSymbol ∧ last = true ∧ s' = s.completeBatch) ∨
       (s.encPhase = .fin ∧ s.encIndex + 1 ≠ s.batchN ∧ sym = endSymbol ∧ last = false ∧
          s' = s.setCursor .start (s.encIndex + 1) s.encBit)) := by
  unfold beat at h
  split at h
  · cases h
  · next p hp =>
    refine ⟨p, hp, ?_⟩
    split at h
    · next hph => cases h; simp [hph]
    · next hph =>
      split at h
      · next hb => cases h; simp [hph, hb]
      · next hb => cases h; simp [hph, hb]
    · next hph =>
      split at h
      · next hn => cases h; simp [hph, hn]
      · next hn => cases h; simp [hph, hn]

/-- A beat is answered whenever the current packet can be read. -/
theorem beat_ok {s : State} {p : Packet} (h : readBatch s s.encIndex = .ok p) : ∃ r, beat s = .ok r := by
  unfold beat
  simp only [h]
  split
  · exact ⟨_, rfl⟩
  · split <;> exact ⟨_, rfl⟩
  · split <;> exact ⟨_, rfl⟩

/-- What DRIVE's loop can do: nothing for capacity 0, else one beat that completes the batch, or one beat and the loop. -/
theorem driveLoop_cases {cap : Nat} {s s' : State} {out : List Symbol} {last : Bool}
    (h : driveLoop cap s = .ok (out, last, s')) :
    (cap = 0 ∧ out = [] ∧ last = false ∧ s' = s) ∨
    (∃ c sym, cap = c + 1 ∧ beat s = .ok (sym, true, s') ∧ out = [sym] ∧ last = true) ∨
    (∃ c sym s1 rest, cap = c + 1 ∧ beat s = .ok (sym, false, s1) ∧ driveLoop c s1 = .ok (rest, last, s') ∧
      out = sym :: rest) := by
  cases cap with
  | zero =>
    simp only [driveLoop] at h
    cases h
    exact .inl ⟨rfl, rfl, rfl, rfl⟩
  | succ c =>
    simp only [driveLoop] at h
    split at h
    · cases h
    · next sym s1 hb => cases h; exact .inr (.inl ⟨c, sym, rfl, hb, rfl, rfl⟩)
    · next sym s1 hb =>
      split at h
      · cases h
      · next rest last' s2 hl => cases h; exact .inr (.inr ⟨c, sym, s1, rest, rfl, hb, hl, rfl⟩)

/-- A property that every beat keeps is kept by DRIVE's loop. -/
theorem driveLoop_keeps {P : State → Prop}
    (hP : ∀ s sym last s', P s → beat s = .ok (sym, last, s') → P s')
    {cap : Nat} {s s' : State} {out : List Symbol} {last : Bool} (h : driveLoop cap s = .ok (out, last, s'))
    (hs : P s) : P s' := by
  induction cap generalizing s out last with
  | zero =>
    rcases driveLoop_cases h with ⟨-, -, -, rfl⟩ | ⟨c, sym, hc, -⟩ | ⟨c, sym, s1, rest, hc, -⟩
    · exact hs
    · simp at hc
    · simp at hc
  | succ cap ih =>
    rcases driveLoop_cases h with ⟨hc, -⟩ | ⟨c, sym, -, hb, -⟩ | ⟨c, sym, s1, rest, hc, hb, hl, -⟩
    · simp at hc
    · exact hP _ _ _ _ hs hb
    · obtain rfl : cap = c := by omega
      exact ih hl (hP _ _ _ _ hs hb)

/-- A beat sets `enc_done` exactly when it completes the batch (41_pulse_encoder.md R117). -/
theorem beat_done {s s' : State} {sym : Symbol} {last : Bool} (h : beat s = .ok (sym, last, s'))
    (hd : s.encDone = false) : s'.encDone = last := by
  obtain ⟨p, -, h⟩ := beat_cases h
  rcases h with ⟨-, -, rfl, rfl⟩ | ⟨-, -, -, rfl, rfl⟩ | ⟨-, -, -, rfl, rfl⟩ | ⟨-, -, -, rfl, rfl⟩ | ⟨-, -, -, rfl, rfl⟩ <;>
    simp [hd]

/-- A property that every beat keeps while the batch is not complete is kept by DRIVE's loop, which sets `enc_done` exactly
when it reports completion. -/
theorem driveLoop_keeps_until_done {P : State → Prop}
    (hP : ∀ s sym last s', P s → s.encDone = false → beat s = .ok (sym, last, s') → P s')
    {cap : Nat} {s s' : State} {out : List Symbol} {last : Bool} (h : driveLoop cap s = .ok (out, last, s'))
    (hd : s.encDone = false) (hs : P s) : P s' ∧ s'.encDone = last := by
  induction cap generalizing s out last with
  | zero =>
    rcases driveLoop_cases h with ⟨-, -, rfl, rfl⟩ | ⟨c, sym, hc, -⟩ | ⟨c, sym, s1, rest, hc, -⟩
    · exact ⟨hs, hd⟩
    · simp at hc
    · simp at hc
  | succ cap ih =>
    rcases driveLoop_cases h with ⟨hc, -⟩ | ⟨c, sym, -, hb, -, rfl⟩ | ⟨c, sym, s1, rest, hc, hb, hl, -⟩
    · simp at hc
    · exact ⟨hP _ _ _ _ hs hd hb, beat_done hb hd⟩
    · obtain rfl : cap = c := by omega
      exact ih hl (beat_done hb hd) (hP _ _ _ _ hs hd hb)

/-- The fields the encoder may write: the cursor, `enc_total`, `enc_done` (10_state.md R27). -/
def EncoderWrote (s s' : State) : Prop :=
  ∃ ph i b n d, s' = { s with encPhase := ph, encIndex := i, encBit := b, encTotal := n, encDone := d }

theorem EncoderWrote.refl (s : State) : EncoderWrote s s := ⟨_, _, _, _, _, rfl⟩

theorem beat_wrote {s s' : State} {sym : Symbol} {last : Bool} (h : beat s = .ok (sym, last, s')) :
    EncoderWrote s s' := by
  obtain ⟨p, -, h⟩ := beat_cases h
  rcases h with ⟨-, -, -, rfl⟩ | ⟨-, -, -, -, rfl⟩ | ⟨-, -, -, -, rfl⟩ | ⟨-, -, -, -, rfl⟩ | ⟨-, -, -, -, rfl⟩ <;>
    exact ⟨_, _, _, _, _, rfl⟩

/-- DRIVE's loop writes the encoder's fields only. -/
theorem driveLoop_wrote {cap : Nat} {s s' : State} {out : List Symbol} {last : Bool}
    (h : driveLoop cap s = .ok (out, last, s')) : EncoderWrote s s' := by
  refine driveLoop_keeps (P := fun t => EncoderWrote s t) (fun t sym l t' ht hb => ?_) h (.refl s)
  obtain ⟨_, _, _, _, _, rfl⟩ := ht
  obtain ⟨_, _, _, _, _, rfl⟩ := beat_wrote hb
  exact ⟨_, _, _, _, _, rfl⟩

/-- What an answered DRIVE call did (R117). -/
theorem driveCall_cases {cap : Nat} {s t : State} (h : driveCall cap s = .next t) :
    outstanding s = true ∧ s.encDone = false ∧ s.batchN ≠ 0 ∧
      ∃ out last s', driveLoop cap s = .ok (out, last, s') ∧ t = (s'.handOver out).returns (.driven out last) := by
  unfold driveCall at h
  split at h
  · next ho =>
    split at h
    · cases h
    · next hd =>
      split at h
      · cases h
      · next hn =>
        split at h
        · cases h
        · next out last s' hl =>
          injection h with h
          exact ⟨ho, by simpa using hd, hn, out, last, s', hl, h.symm⟩
  · cases h

/-- An answered beat of a phase is DRIVE(1) in that phase (R120). -/
theorem driveBeat_cases {ph : EncPhase} {s t : State} (h : driveBeat ph s = .next t) :
    s.encPhase = ph ∧ driveCall 1 s = .next t := by
  unfold driveBeat at h
  split at h
  · cases h
  · next hg =>
    obtain ⟨ho, hd, -, -⟩ := driveCall_cases h
    refine ⟨?_, h⟩
    by_cases hp : s.encPhase = ph
    · exact hp
    · exact absurd ⟨ho, by simp [hd], hp⟩ hg

/-- An answered read of the current packet is made during a transmission whose batch is not complete (10_state.md R22, R11). -/
theorem readPresented_cases {src : BatchSrc} {s t : State} (h : readPresented src s = .next t) :
    outstanding s = true ∧ s.encDone = false ∧ s.batchSrc = src ∧ s.encIndex < s.batchN ∧
      ∃ p, readBatch s s.encIndex = .ok p ∧ t = s.returns (.packet p) := by
  unfold readPresented at h
  split at h
  · next hg =>
    split at h
    · cases h
    · next p hp => injection h with h; exact ⟨hg.1, hg.2.1, hg.2.2.1, hg.2.2.2, p, hp, h.symm⟩
  · cases h

/-! ### The transmission -/

/-- An answered symbol is the next one handed over (41_pulse_encoder.md R123). -/
theorem playSymbol_cases {sym : Symbol} {s t : State} (h : playSymbol sym s = .next t) :
    ∃ rest, s.txPending = sym :: rest ∧ t = s.playOne sym rest := by
  unfold playSymbol at h
  split at h
  · cases h
  · next next rest hp =>
    split at h
    · next he => subst he; injection h with h; exact ⟨rest, hp, h.symm⟩
    · cases h

theorem heldEnd_cases {r : Token} {s t : State} (h : heldEnd r s = .next t) :
    s.arbState = .txHeld ∧ resultAllowed r s = true ∧
      t = ((s.settleLine r).setStopSent false).setArb .cycle := by
  unfold heldEnd at h
  split at h
  · next ha =>
    split at h
    · next hr => injection h with h; exact ⟨ha, hr, h.symm⟩
    · cases h
  · cases h

theorem stopEnd_cases {r : Token} {s t : State} (h : stopEnd r s = .next t) :
    s.arbState = .txStop ∧ resultAllowed r s = true ∧
      t = ((s.settleLine r).setStopSent true).setArb .cycle := by
  unfold stopEnd at h
  split at h
  · next ha =>
    split at h
    · next hr => injection h with h; exact ⟨ha, hr, h.symm⟩
    · cases h
  · cases h

theorem flushEnd_cases {r : Token} {s t : State} (h : flushEnd r s = .next t) :
    s.arbState = .txFlush ∧ resultAllowed r s = true ∧
      t = ((((s.settleLine r).notify r).setQueue s.qMem 0).setLock false).setArb .cycle := by
  unfold flushEnd at h
  split at h
  · next ha =>
    split at h
    · next hr => injection h with h; exact ⟨ha, hr, h.symm⟩
    · cases h
  · cases h

/-- An answered transmission result is one of the three completion steps (44_arbiter.md R194). -/
theorem endTransmission_cases {r : Token} {s t : State} (h : endTransmission r s = .next t) :
    heldEnd r s = .next t ∨ stopEnd r s = .next t ∨ flushEnd r s = .next t := by
  unfold endTransmission at h
  split at h
  · cases h
  · exact .inl h
  · exact .inr (.inl h)
  · cases h
  · exact .inr (.inr h)

/-! ### The arbiter -/

/-- What an answered ARB_CYCLE did (44_arbiter.md R182). -/
theorem cycleStep_cases {s t : State} (h : cycleStep s = .next t) :
    s.arbState = .cycle ∧
      ((s.heldKey ≠ 0 ∧ t = heldBegin s.heldKey s.channel s) ∨
       (s.heldKey = 0 ∧ s.stopSent = true ∧ t = s.setArb .wait) ∨
       (s.heldKey = 0 ∧ s.stopSent = false ∧ t = stopBegin s.channel s)) := by
  unfold cycleStep at h
  split at h
  · next ha =>
    refine ⟨ha, ?_⟩
    split at h
    · next hk => injection h with h; exact .inl ⟨hk, h.symm⟩
    · next hk =>
      have hk : s.heldKey = 0 := by simpa using hk
      split at h
      · next hs => injection h with h; exact .inr (.inl ⟨hk, hs, h.symm⟩)
      · next hs => injection h with h; exact .inr (.inr ⟨hk, by simpa using hs, h.symm⟩)
  · cases h

/-- What an answered ARB_FLUSH begin did (R190). -/
theorem flushBegin_cases {s t : State} (h : flushBegin s = .next t) :
    (s.qCount = 0 ∧ t = s.setArb .cycle) ∨
    (s.qCount ≠ 0 ∧ ∃ m, rebuildEntries s.channel s.qCount 0 s.qMem = .ok m ∧
      t = (transmitBegin (((s.setLock true).setQueue m s.qCount).present .queue s.qCount)).setArb .txFlush) := by
  unfold flushBegin at h
  split at h
  · next hq => injection h with h; exact .inl ⟨hq, h.symm⟩
  · next hq =>
    split at h
    · cases h
    · next m hm => injection h with h; exact .inr ⟨hq, m, hm, h.symm⟩

/-- What an answered ARB_WAIT did (R188). -/
theorem waitStep_cases {s t : State} (h : waitStep s = .next t) :
    s.arbState = .wait ∧
      ((s.wakeFlush = true ∧ flushBegin s.clearWakes = .next t) ∨
       (s.wakeFlush = false ∧ s.wakeContinue = true ∧ t = s.clearWakes.setArb .cycle) ∨
       (s.wakeFlush = false ∧ s.wakeContinue = false ∧ t = s)) := by
  unfold waitStep at h
  split at h
  · next ha =>
    refine ⟨ha, ?_⟩
    split at h
    · next hf => exact .inl ⟨hf, h⟩
    · next hf =>
      have hf : s.wakeFlush = false := by simpa using hf
      split at h
      · next hc => injection h with h; exact .inr (.inl ⟨hf, hc, h.symm⟩)
      · next hc => injection h with h; exact .inr (.inr ⟨hf, by simpa using hc, h.symm⟩)
  · cases h

theorem heldStart_cases {s t : State} (h : heldStart s = .next t) :
    s.arbState = .cycle ∧ s.heldKey ≠ 0 ∧ t = heldBegin s.heldKey s.channel s := by
  unfold heldStart at h
  split at h
  · next hg => injection h with h; exact ⟨hg.1, hg.2, h.symm⟩
  · cases h

theorem stopStart_cases {s t : State} (h : stopStart s = .next t) :
    s.arbState = .cycle ∧ s.heldKey = 0 ∧ s.stopSent = false ∧ t = stopBegin s.channel s := by
  unfold stopStart at h
  split at h
  · next hg => injection h with h; exact ⟨hg.1, hg.2.1, hg.2.2, h.symm⟩
  · cases h

theorem flushStart_cases {s t : State} (h : flushStart s = .next t) :
    s.arbState = .wait ∧ s.wakeFlush = true ∧ flushBegin s.clearWakes = .next t := by
  unfold flushStart at h
  split at h
  · next hg => exact ⟨hg.1, hg.2, h⟩
  · cases h

theorem continueStart_cases {s t : State} (h : continueStart s = .next t) :
    s.arbState = .wait ∧ s.wakeFlush = false ∧ s.wakeContinue = true ∧ t = s.clearWakes.setArb .cycle := by
  unfold continueStart at h
  split at h
  · next hg => injection h with h; exact ⟨hg.1, hg.2.1, hg.2.2, h.symm⟩
  · cases h

/-- Where the arbiter's next step begins a transmission (R181). -/
theorem beginsTransmission_iff (s : State) :
    beginsTransmission s = true ↔
      (s.arbState = .cycle ∧ (s.heldKey ≠ 0 ∨ s.stopSent = false)) ∨
      (s.arbState = .wait ∧ s.wakeFlush = true ∧ s.qCount ≠ 0) := by
  unfold beginsTransmission
  cases s.arbState <;> simp

/-- A transmission begins only when none is outstanding (R195). -/
theorem outstanding_of_begins {s : State} (h : beginsTransmission s = true) : outstanding s = false := by
  rcases (beginsTransmission_iff s).mp h with ⟨ha, -⟩ | ⟨ha, -⟩ <;> simp [outstanding, ha]

/-- An answered ENC_RESET request stands where a transmission begins (41_pulse_encoder.md R115). -/
theorem requestReset_cases {s t : State} (h : requestReset s = .next t) :
    beginsTransmission s = true ∧ t = s.encReset := by
  unfold requestReset at h
  split at h
  · next hb => injection h with h; exact ⟨hb, h.symm⟩
  · cases h

/-- The timer always ends an outstanding transmission (44_arbiter.md R194, 60_exceptions.md R240). -/
theorem endTransmission_timeout {s : State} (h : outstanding s = true) :
    ∃ t, endTransmission .timeout s = .next t := by
  rcases (outstanding_iff s).mp h with ha | ha | ha
  · exact ⟨_, by simp only [endTransmission, heldEnd, ha, resultAllowed]; rfl⟩
  · exact ⟨_, by simp only [endTransmission, stopEnd, ha, resultAllowed]; rfl⟩
  · exact ⟨_, by simp only [endTransmission, flushEnd, ha, resultAllowed]; rfl⟩

/-- What the arbiter's own step did: a step of CYCLE or WAIT, or the end of a transmission by its timer (R181, R194). -/
theorem arbiterStep_cases {s t : State} (h : arbiterStep s = .next t) :
    cycleStep s = .next t ∨ waitStep s = .next t ∨ (outstanding s = true ∧ endTransmission .timeout s = .next t) := by
  unfold arbiterStep at h
  split at h
  · exact .inl h
  · next ha => exact .inr (.inr ⟨by simp [outstanding_iff, ha], h⟩)
  · next ha => exact .inr (.inr ⟨by simp [outstanding_iff, ha], h⟩)
  · exact .inr (.inl h)
  · next ha => exact .inr (.inr ⟨by simp [outstanding_iff, ha], h⟩)

/-! ### The command port -/

/-- What an answered APPEND did: the units that fit stand at the tail, the count grows by their number, one event tells how
many were dropped, and the flush cause is raised when the queue is not empty (43_commands.md R162). -/
theorem appendCommand_cases {payload : List Byte} {s t : State} (h : appendCommand payload s = .next t) :
    ∃ m, writeEntries s.qMem s.qCount ((payloadUnits payload).take (128 - s.qCount)) = .ok m ∧
      t = { s with
        qMem := m
        qCount := s.qCount + ((payloadUnits payload).take (128 - s.qCount)).length
        diags := s.diags ++ (if 128 - s.qCount < (payloadUnits payload).length then
          [.appendOverflow ((payloadUnits payload).length - (128 - s.qCount))] else [])
        wakeFlush := s.wakeFlush ||
          decide (s.qCount + ((payloadUnits payload).take (128 - s.qCount)).length ≠ 0) } := by
  simp only [appendCommand, Config.queueCapacity] at h
  split at h
  · cases h
  · next m hm =>
    injection h with h
    refine ⟨m, hm, ?_⟩
    subst h
    by_cases ho : 128 - s.qCount < (payloadUnits payload).length <;>
      simp only [ho, if_true, if_false, List.append_nil] <;> split
    · next hq => simp at hq; simp [State.raiseFlush, State.raiseDiag, State.setQueue]; tauto
    · next hq => simp at hq; simp [State.raiseDiag, State.setQueue]; tauto
    · next hq => simp at hq; simp [State.raiseFlush, State.setQueue]; tauto
    · next hq => simp at hq; simp [State.setQueue]; tauto

/-- What an accepted command did. -/
theorem acceptCommand_cases {c : Command} {s t : State} (h : acceptCommand c s = .next t) :
    (∃ payload, c = .append payload ∧ appendCommand payload s = .next t) ∨
    (c = .flush ∧ t = flushCommand s) ∨
    (∃ b, c = .heldKey b ∧ t = heldKeyCommand b s) ∨
    (∃ b, c = .setChan b ∧ t = setChanCommand b s) := by
  cases c with
  | append payload => exact .inl ⟨payload, rfl, h⟩
  | flush => injection h with h; exact .inr (.inl ⟨rfl, h.symm⟩)
  | heldKey b => injection h with h; exact .inr (.inr (.inl ⟨b, rfl, h.symm⟩))
  | setChan b => injection h with h; exact .inr (.inr (.inr ⟨b, rfl, h.symm⟩))

theorem flushCommand_cases (s : State) :
    (s.qCount ≠ 0 ∧ flushCommand s = s.raiseFlush) ∨ (s.qCount = 0 ∧ flushCommand s = s.raiseDiag .flushEmpty) := by
  unfold flushCommand
  split
  · next h => exact .inl ⟨h, rfl⟩
  · next h => exact .inr ⟨by simpa using h, rfl⟩

/-- An issued command is accepted at once or waits at the port (R160). -/
theorem issueCommand_cases {c : Command} {s t : State} (h : issueCommand c s = .next t) :
    (s.port = [] ∧ acceptable c s = true ∧ acceptCommand c s = .next t) ∨
    ((s.port ≠ [] ∨ acceptable c s = false) ∧ t = s.setPort (s.port ++ [c])) := by
  unfold issueCommand at h
  split at h
  · next hg =>
    simp only [Bool.and_eq_true, List.isEmpty_iff] at hg
    exact .inl ⟨hg.1, hg.2, h⟩
  · next hg =>
    injection h with h
    refine .inr ⟨?_, h.symm⟩
    simp only [Bool.and_eq_true, List.isEmpty_iff, not_and, Bool.not_eq_true] at hg
    by_cases hp : s.port = []
    · exact .inr (hg hp)
    · exact .inl hp

/-- The oldest waiting command is accepted, or nothing changes (R160). -/
theorem acceptWaiting_cases {s t : State} (h : acceptWaiting s = .next t) :
    (∃ c rest, s.port = c :: rest ∧ acceptable c s = true ∧ acceptCommand c (s.setPort rest) = .next t) ∨ t = s := by
  unfold acceptWaiting at h
  split at h
  · injection h with h; exact .inr h.symm
  · next c rest hp =>
    split at h
    · next ha => exact .inl ⟨c, rest, hp, ha, h⟩
    · injection h with h; exact .inr h.symm

/-- The block's own move: a waiting command is accepted, or the arbiter's step. -/
theorem autonomous_cases {s t : State} (h : autonomous s = .next t) :
    (∃ c rest, s.port = c :: rest ∧ acceptable c s = true ∧ acceptCommand c (s.setPort rest) = .next t) ∨
    arbiterStep s = .next t := by
  unfold autonomous at h
  split at h
  · exact .inr h
  · next c rest hp =>
    split at h
    · next ha => exact .inl ⟨c, rest, hp, ha, h⟩
    · exact .inr h

/-- An APPEND or FLUSH is acceptable only while the queue is not locked (R160). -/
theorem acceptable_append {payload : List Byte} {s : State} (h : acceptable (.append payload) s = true) :
    s.qLock = false := by
  simpa [acceptable] using h

/-! ### Lists and the decoder -/

/-- A bit of a byte-exchanged packet (40_packet_checksum.md R99). -/
theorem swapBytes_getLsbD (p : Packet) (i : Nat) (hi : i < 16) :
    (swapBytes p).getLsbD i = p.getLsbD (if i < 8 then i + 8 else i - 8) := by
  simp only [swapBytes, BitVec.getLsbD_append, BitVec.getLsbD_extractLsb']
  by_cases h : i < 8
  · simp [h, Nat.add_comm]
  · simp [h, show i - 8 < 8 by omega]

theorem waveform_append (l k : List Symbol) : waveform (l ++ k) = waveform l ++ waveform k := by
  induction l with
  | nil => rfl
  | cons s rest ih => simp [waveform, ih]

theorem totalDuration_append (l k : List Symbol) : totalDuration (l ++ k) = totalDuration l + totalDuration k := by
  induction l with
  | nil => simp [totalDuration]
  | cons s rest ih => simp [totalDuration, ih, Nat.add_assoc]

theorem frameOf_length (p : Packet) : (frameOf p).length = 18 := by simp [frameOf]

theorem frameSeq_cons (p : Packet) (ps : List Packet) : frameSeq (p :: ps) = frameOf p ++ frameSeq ps := rfl

theorem frameSeq_length (ps : List Packet) : (frameSeq ps).length = 18 * ps.length := by
  induction ps with
  | nil => rfl
  | cons p rest ih => simp only [frameSeq_cons, List.length_append, frameOf_length, ih, List.length_cons]; omega

/-- The symbols of a frame still to consume are skipped (42_pulse_decoder.md R144: `i = i + 17`). -/
theorem scanSpaces_skip (n : Nat) (l : List Nat) : scanSpaces n l = scanSpaces 0 (l.drop n) := by
  induction n generalizing l with
  | zero => simp
  | succ n ih =>
    cases l with
    | nil => simp [scanSpaces]
    | cons x rest => simp [scanSpaces, ih]

/-- A start marker with 16 symbols after it yields a frame and the scan resumes 17 symbols on. -/
theorem scanSpaces_frame {x : Nat} {rest : List Nat} (hx : isStartSpace x = true) (hl : 16 ≤ rest.length) :
    scanSpaces 0 (x :: rest) =
      ⟨assembleBits (rest.take 16), validPacket (assembleBits (rest.take 16))⟩ :: scanSpaces 0 (rest.drop 16) := by
  simp [scanSpaces, hx, hl, scanSpaces_skip 16 rest]

/-- Any other symbol is skipped alone. -/
theorem scanSpaces_other {x : Nat} {rest : List Nat} (h : isStartSpace x = false ∨ rest.length < 16) :
    scanSpaces 0 (x :: rest) = scanSpaces 0 rest := by
  rcases h with h | h
  · simp [scanSpaces, h]
  · simp [scanSpaces, Nat.not_le.mpr h]

end Sys2Proof.Machine
end

