-- ==== Sys2Proof/Laws/Exec.lean ====
section
/-! SUPPORT. What one operation and one step can do, said once: `Moved s t` lists the ways an answered operation changes the
state, and `exec_moved` and `step_moved` say that there is no other. Proofs about all operations take cases on it. -/

namespace Sys2Proof.Machine

/-- One answered move of the block from `s` to `t`. -/
inductive Moved (s t : State) : Prop
  /-- A result is returned to its caller: PKT, BATCHSRC and the pure CALL rows. -/
  | returned (v : Value) (h : t = s.returns v)
  /-- A DECODE call delivers. -/
  | delivered (frames : List Frame) (events : List Diag) (h : t = s.deliver frames events)
  /-- A DIAG row. -/
  | raised (d : Diag) (h : t = s.raiseDiag d)
  /-- ENC_RESET, and TRANSMIT's begin, where a transmission begins. -/
  | encoderReset (hb : beginsTransmission s = true) (h : t = s.encReset)
  /-- A SYM row. -/
  | played (y : Symbol) (h : playSymbol y s = .next t)
  /-- A DRIVE call: DRIVE, TRANSMIT's call, an ENCPHASE row. -/
  | drove (cap : Nat) (h : driveCall cap s = .next t)
  /-- A command is issued. -/
  | issued (c : Command) (h : issueCommand c s = .next t)
  /-- ARB_HELD completion. -/
  | heldEnded (r : Token) (h : heldEnd r s = .next t)
  /-- ARB_STOP completion. -/
  | stopEnded (r : Token) (h : stopEnd r s = .next t)
  /-- ARB_FLUSH completion. -/
  | flushEnded (r : Token) (h : flushEnd r s = .next t)
  /-- ARB_CYCLE. -/
  | cycled (h : cycleStep s = .next t)
  /-- ARB_WAIT, also by a WAKE row. -/
  | waited (h : waitStep s = .next t)

theorem moved_endTransmission {r : Token} {s t : State} (h : endTransmission r s = .next t) : Moved s t := by
  rcases endTransmission_cases h with h | h | h
  · exact .heldEnded r h
  · exact .stopEnded r h
  · exact .flushEnded r h

theorem moved_readPresented {src : BatchSrc} {s t : State} (h : readPresented src s = .next t) : Moved s t := by
  obtain ⟨-, -, -, -, p, -, rfl⟩ := readPresented_cases h
  exact .returned _ rfl

theorem moved_driveBeat {ph : EncPhase} {s t : State} (h : driveBeat ph s = .next t) : Moved s t :=
  .drove 1 (driveBeat_cases h).2

theorem moved_packetRow {k : Key} {c : Channel} {x : Nibble} {s t : State} (h : packetRow k c x s = .next t) :
    Moved s t := by
  injection h with h
  exact .returned _ h.symm

/-- ARB_HELD begin is ARB_CYCLE with a key held (44_arbiter.md R182). -/
theorem heldStart_eq_cycleStep {s t : State} (h : heldStart s = .next t) : cycleStep s = .next t := by
  obtain ⟨ha, hk, rfl⟩ := heldStart_cases h
  simp only [cycleStep, ha, if_true, if_pos hk]

/-- ARB_STOP begin is ARB_CYCLE with no key held and no stop sent (44_arbiter.md R182). -/
theorem stopStart_eq_cycleStep {s t : State} (h : stopStart s = .next t) : cycleStep s = .next t := by
  obtain ⟨ha, hk, hs, rfl⟩ := stopStart_cases h
  simp [cycleStep, ha, hk, hs]

/-- ARB_FLUSH begin is ARB_WAIT with a flush cause (44_arbiter.md R188). -/
theorem flushStart_eq_waitStep {s t : State} (h : flushStart s = .next t) : waitStep s = .next t := by
  obtain ⟨ha, hf, h⟩ := flushStart_cases h
  simp [waitStep, ha, hf, h]

/-- WAKE.continue is ARB_WAIT with no flush cause (44_arbiter.md R188). -/
theorem continueStart_eq_waitStep {s t : State} (h : continueStart s = .next t) : waitStep s = .next t := by
  obtain ⟨ha, hf, hc, rfl⟩ := continueStart_cases h
  simp [waitStep, ha, hf, hc]

theorem moved_requestReset {s t : State} (h : requestReset s = .next t) : Moved s t :=
  .encoderReset (requestReset_cases h).1 (requestReset_cases h).2

/-- Everything an answered operation can do. -/
theorem exec_moved {i : Instr} {s t : State} (h : exec i s = .next t) : Moved s t := by
  cases i with
  | pktStop c x => exact moved_packetRow h
  | pktLb c x => exact moved_packetRow h
  | pktLf c x => exact moved_packetRow h
  | pktLbLf c x => exact moved_packetRow h
  | pktRf c x => exact moved_packetRow h
  | pktLbRf c x => exact moved_packetRow h
  | pktLfRf c x => exact moved_packetRow h
  | pktLbLfRf c x => exact moved_packetRow h
  | pktRb c x => exact moved_packetRow h
  | pktLbRb c x => exact moved_packetRow h
  | pktLfRb c x => exact moved_packetRow h
  | pktLbLfRb c x => exact moved_packetRow h
  | pktRfRb c x => exact moved_packetRow h
  | pktLbRfRb c x => exact moved_packetRow h
  | pktLfRfRb c x => exact moved_packetRow h
  | pktLbLfRfRb c x => exact moved_packetRow h
  | symStart => exact .played _ h
  | symBit0 => exact .played _ h
  | symBit1 => exact .played _ h
  | symEnd => exact .played _ h
  | append payload => exact .issued _ h
  | flush payload => exact .issued _ h
  | heldKey payload =>
    match payload, h with
    | [b], h => exact .issued _ h
    | [], h => cases h
    | _ :: _ :: _, h => cases h
  | setChan payload =>
    match payload, h with
    | [b], h => exact .issued _ h
    | [], h => cases h
    | _ :: _ :: _, h => cases h
  | outDone => exact moved_endTransmission h
  | outInvalidArg => exact moved_endTransmission h
  | outTimeout => exact moved_endTransmission h
  | outFail => exact moved_endTransmission h
  | outUnknownError => exact moved_endTransmission h
  | diagFlushEmpty => injection h with h; exact .raised _ h.symm
  | diagAppendOverflow n => injection h with h; exact .raised _ h.symm
  | diagInvalidFrame v => injection h with h; exact .raised _ h.symm
  | wakeContinue => exact .waited (continueStart_eq_waitStep h)
  | wakeFlush => exact .waited (flushStart_eq_waitStep h)
  | arbStateCycle => exact .cycled h
  | arbStateTxHeld r => exact .heldEnded r h
  | arbStateTxStop r => exact .stopEnded r h
  | arbStateWait => exact .waited h
  | arbStateTxFlush r => exact .flushEnded r h
  | encPhaseStart => exact moved_driveBeat h
  | encPhaseWord => exact moved_driveBeat h
  | encPhaseEnd => exact moved_driveBeat h
  | batchSrcBuf => exact moved_readPresented h
  | batchSrcQueue => exact moved_readPresented h
  | checksum v => injection h with h; exact .returned _ h.symm
  | singleKey k => injection h with h; exact .returned _ h.symm
  | encode k c => injection h with h; exact .returned _ h.symm
  | validate p => injection h with h; exact .returned _ h.symm
  | wireBit p n => injection h with h; exact .returned _ h.symm
  | frameSeq batch =>
    simp only [exec, execFrameSeq] at h
    split at h
    · cases h
    · injection h with h; exact .returned _ h.symm
  | encReset => exact moved_requestReset h
  | drive cap => exact .drove cap h
  | waveform syms => injection h with h; exact .returned _ h.symm
  | isStart y => injection h with h; exact .returned _ h.symm
  | classify y => injection h with h; exact .returned _ h.symm
  | decode capture => injection h with h; exact .delivered _ _ h.symm
  | arbHeld part =>
    cases part with
    | start => exact .cycled (heldStart_eq_cycleStep h)
    | complete r => exact .heldEnded r h
  | arbStop part =>
    cases part with
    | start => exact .cycled (stopStart_eq_cycleStep h)
    | complete r => exact .stopEnded r h
  | arbFlush part =>
    cases part with
    | start => exact .waited (flushStart_eq_waitStep h)
    | complete r => exact .flushEnded r h
  | arbCycle => exact .cycled h
  | arbWait => exact .waited h
  | transmit part =>
    cases part with
    | start =>
      simp only [exec, execTransmit] at h
      split at h
      · cases h
      · exact moved_requestReset h
    | drive cap => exact .drove cap h
    | finish r => exact moved_endTransmission h

/-- Everything an answered step can do: with an event taken from the inbox, a move, the acceptance of the oldest waiting
command, or nothing; with none left, a move, such an acceptance, or nothing. -/
theorem step_moved {s t : State} (h : step s = .next t) :
    ∃ l, (l = s.inbox ∨ ∃ e, s.inbox = e :: l) ∧
      (Moved (s.setInbox l) t ∨ t = s.setInbox l ∨
        ∃ c rest, s.port = c :: rest ∧ acceptable c s = true ∧
          acceptCommand c ((s.setInbox l).setPort rest) = .next t) := by
  unfold step at h
  split at h
  · next hi =>
    refine ⟨s.inbox, .inl rfl, ?_⟩
    rw [show s.setInbox s.inbox = s from rfl]
    rcases autonomous_cases h with hc | h
    · exact .inr (.inr hc)
    · rcases arbiterStep_cases h with h | h | ⟨-, h⟩
      · exact .inl (.cycled h)
      · exact .inl (.waited h)
      · exact .inl (moved_endTransmission h)
  · next rest hi =>
    refine ⟨rest, .inr ⟨_, hi⟩, ?_⟩
    rcases acceptWaiting_cases h with ⟨c, r, hp, ha, h⟩ | h
    · exact .inr (.inr ⟨c, r, hp, ha, h⟩)
    · exact .inr (.inl h)
  · next r rest hi =>
    refine ⟨rest, .inr ⟨_, hi⟩, ?_⟩
    split at h
    · cases h
    · exact .inl (exec_moved h)

end Sys2Proof.Machine
end

