-- ==== Sys2Proof/Laws/PerInstr.lean ====
section
/-! SUPPORT. Per-operation laws. `TablePattern`: the bytes an operation is encoded as, read low byte first and masked with its
row's mask of spec/opcode_table.json, are the row's match value. -/

namespace Sys2Proof.Laws.TablePattern

/-- The bytes that carry the coded word of an operation's row, with the mask and the match value of spec/opcode_table.json; a
CALL row has no bits. -/
def row : Instr → Nat × Nat × Nat
  | .pktStop _ _ => (2, 0x8FF0, 0x0100)
  | .pktLb _ _ => (2, 0x8FF0, 0x8110)
  | .pktLf _ _ => (2, 0x8FF0, 0x8120)
  | .pktLbLf _ _ => (2, 0x8FF0, 0x0130)
  | .pktRf _ _ => (2, 0x8FF0, 0x8140)
  | .pktLbRf _ _ => (2, 0x8FF0, 0x0150)
  | .pktLfRf _ _ => (2, 0x8FF0, 0x0160)
  | .pktLbLfRf _ _ => (2, 0x8FF0, 0x0170)
  | .pktRb _ _ => (2, 0x8FF0, 0x8180)
  | .pktLbRb _ _ => (2, 0x8FF0, 0x0190)
  | .pktLfRb _ _ => (2, 0x8FF0, 0x01A0)
  | .pktLbLfRb _ _ => (2, 0x8FF0, 0x01B0)
  | .pktRfRb _ _ => (2, 0x8FF0, 0x01C0)
  | .pktLbRfRb _ _ => (2, 0x8FF0, 0x01D0)
  | .pktLfRfRb _ _ => (2, 0x8FF0, 0x01E0)
  | .pktLbLfRfRb _ _ => (2, 0x8FF0, 0x01F0)
  | .symStart => (4, 0xFFFFFFFF, 0x009E03B6)
  | .symBit0 => (4, 0xFFFFFFFF, 0x009E0107)
  | .symBit1 => (4, 0xFFFFFFFF, 0x009E0229)
  | .symEnd => (4, 0xFFFFFFFF, 0x009E7530)
  | .append _ => (1, 0x3, 0x0)
  | .flush _ => (1, 0x3, 0x1)
  | .heldKey _ => (1, 0x3, 0x2)
  | .setChan _ => (1, 0x3, 0x3)
  | .outDone => (1, 0x7, 0x0)
  | .outInvalidArg => (1, 0x7, 0x1)
  | .outTimeout => (1, 0x7, 0x2)
  | .outFail => (1, 0x7, 0x3)
  | .outUnknownError => (1, 0x7, 0x4)
  | .diagFlushEmpty => (1, 0x3, 0x0)
  | .diagAppendOverflow _ => (1, 0x3, 0x1)
  | .diagInvalidFrame _ => (1, 0x3, 0x2)
  | .wakeContinue => (1, 0x1, 0x0)
  | .wakeFlush => (1, 0x1, 0x1)
  | .arbStateCycle => (1, 0x7, 0x0)
  | .arbStateTxHeld _ => (1, 0x7, 0x1)
  | .arbStateTxStop _ => (1, 0x7, 0x2)
  | .arbStateWait => (1, 0x7, 0x3)
  | .arbStateTxFlush _ => (1, 0x7, 0x4)
  | .encPhaseStart => (1, 0x3, 0x0)
  | .encPhaseWord => (1, 0x3, 0x1)
  | .encPhaseEnd => (1, 0x3, 0x2)
  | .batchSrcBuf => (1, 0x1, 0x0)
  | .batchSrcQueue => (1, 0x1, 0x1)
  | .checksum _ => (0, 0x0, 0x0)
  | .singleKey _ => (0, 0x0, 0x0)
  | .encode _ _ => (0, 0x0, 0x0)
  | .validate _ => (0, 0x0, 0x0)
  | .wireBit _ _ => (0, 0x0, 0x0)
  | .frameSeq _ => (0, 0x0, 0x0)
  | .encReset => (0, 0x0, 0x0)
  | .drive _ => (0, 0x0, 0x0)
  | .waveform _ => (0, 0x0, 0x0)
  | .isStart _ => (0, 0x0, 0x0)
  | .classify _ => (0, 0x0, 0x0)
  | .decode _ => (0, 0x0, 0x0)
  | .arbHeld _ => (0, 0x0, 0x0)
  | .arbStop _ => (0, 0x0, 0x0)
  | .arbFlush _ => (0, 0x0, 0x0)
  | .arbCycle => (0, 0x0, 0x0)
  | .arbWait => (0, 0x0, 0x0)
  | .transmit _ => (0, 0x0, 0x0)

/-- The coded word of the encoding matches the operation's row. -/
def Statement (i : Instr) : Prop :=
  Sys2Proof.natOfBytes ((Sys2Proof.encode i).bytes.take (row i).1) &&& (row i).2.1 = (row i).2.2

/-- A packet word keeps its row's match value under the row's mask, whatever its channel and its checksum. -/
theorem pkt (m : BitVec 16) (hm : m &&& 0x8FF0 = m) (c : Channel) (x : Nibble) :
    Sys2Proof.natOfBytes ((encodePkt m c x).bytes.take 2) &&& 0x8FF0 = m.toNat := by
  have hw : ∀ w : BitVec 16, Sys2Proof.natOfBytes ((bytesOf16 w).take 2) = w.toNat := by
    intro w
    have h := w.isLt
    simp only [bytesOf16, lowByte, highByte, List.take, Sys2Proof.natOfBytes, BitVec.extractLsb'_toNat,
      Nat.shiftRight_eq_div_pow]
    omega
  have hc : (m ||| c.setWidth 16 <<< 12 ||| x.setWidth 16) &&& 0x8FF0#16 = m := by
    have h0 : ∀ c : Channel, c.setWidth 16 <<< 12 &&& 0x8FF0#16 = 0 := by decide
    have h1 : ∀ x : Nibble, x.setWidth 16 &&& 0x8FF0#16 = 0 := by decide
    have hd : ∀ a b d : BitVec 16, (a ||| b) &&& d = a &&& d ||| b &&& d := by
      intro a b d
      ext j hj
      simp only [BitVec.getElem_and, BitVec.getElem_or, Bool.and_or_distrib_right]
    rw [hd, hd, h0 c, h1 x]
    simpa using hm
  simp only [encodePkt, hw]
  exact congrArg BitVec.toNat hc

theorem pktStop (channel : Channel) (checksum : Nibble) : Statement (.pktStop channel checksum) :=
  pkt _ (by decide) channel checksum
theorem pktLb (channel : Channel) (checksum : Nibble) : Statement (.pktLb channel checksum) :=
  pkt _ (by decide) channel checksum
theorem pktLf (channel : Channel) (checksum : Nibble) : Statement (.pktLf channel checksum) :=
  pkt _ (by decide) channel checksum
theorem pktLbLf (channel : Channel) (checksum : Nibble) : Statement (.pktLbLf channel checksum) :=
  pkt _ (by decide) channel checksum
theorem pktRf (channel : Channel) (checksum : Nibble) : Statement (.pktRf channel checksum) :=
  pkt _ (by decide) channel checksum
theorem pktLbRf (channel : Channel) (checksum : Nibble) : Statement (.pktLbRf channel checksum) :=
  pkt _ (by decide) channel checksum
theorem pktLfRf (channel : Channel) (checksum : Nibble) : Statement (.pktLfRf channel checksum) :=
  pkt _ (by decide) channel checksum
theorem pktLbLfRf (channel : Channel) (checksum : Nibble) : Statement (.pktLbLfRf channel checksum) :=
  pkt _ (by decide) channel checksum
theorem pktRb (channel : Channel) (checksum : Nibble) : Statement (.pktRb channel checksum) :=
  pkt _ (by decide) channel checksum
theorem pktLbRb (channel : Channel) (checksum : Nibble) : Statement (.pktLbRb channel checksum) :=
  pkt _ (by decide) channel checksum
theorem pktLfRb (channel : Channel) (checksum : Nibble) : Statement (.pktLfRb channel checksum) :=
  pkt _ (by decide) channel checksum
theorem pktLbLfRb (channel : Channel) (checksum : Nibble) : Statement (.pktLbLfRb channel checksum) :=
  pkt _ (by decide) channel checksum
theorem pktRfRb (channel : Channel) (checksum : Nibble) : Statement (.pktRfRb channel checksum) :=
  pkt _ (by decide) channel checksum
theorem pktLbRfRb (channel : Channel) (checksum : Nibble) : Statement (.pktLbRfRb channel checksum) :=
  pkt _ (by decide) channel checksum
theorem pktLfRfRb (channel : Channel) (checksum : Nibble) : Statement (.pktLfRfRb channel checksum) :=
  pkt _ (by decide) channel checksum
theorem pktLbLfRfRb (channel : Channel) (checksum : Nibble) : Statement (.pktLbLfRfRb channel checksum) :=
  pkt _ (by decide) channel checksum
theorem symStart : Statement .symStart := by unfold Statement; decide
theorem symBit0 : Statement .symBit0 := by unfold Statement; decide
theorem symBit1 : Statement .symBit1 := by unfold Statement; decide
theorem symEnd : Statement .symEnd := by unfold Statement; decide
theorem append (payload : List Byte) : Statement (.append payload) := by simp [Statement, row, Sys2Proof.natOfBytes, Sys2Proof.encode]
theorem flush (payload : List Byte) : Statement (.flush payload) := by simp [Statement, row, Sys2Proof.natOfBytes, Sys2Proof.encode]
theorem heldKey (payload : List Byte) : Statement (.heldKey payload) := by simp [Statement, row, Sys2Proof.natOfBytes, Sys2Proof.encode]
theorem setChan (payload : List Byte) : Statement (.setChan payload) := by simp [Statement, row, Sys2Proof.natOfBytes, Sys2Proof.encode]
theorem outDone : Statement .outDone := by unfold Statement; decide
theorem outInvalidArg : Statement .outInvalidArg := by unfold Statement; decide
theorem outTimeout : Statement .outTimeout := by unfold Statement; decide
theorem outFail : Statement .outFail := by unfold Statement; decide
theorem outUnknownError : Statement .outUnknownError := by unfold Statement; decide
theorem diagFlushEmpty : Statement .diagFlushEmpty := by unfold Statement; decide
theorem diagAppendOverflow (dropped : Nat) : Statement (.diagAppendOverflow dropped) := by simp [Statement, row, Sys2Proof.natOfBytes, Sys2Proof.encode]
theorem diagInvalidFrame (v : Packet) : Statement (.diagInvalidFrame v) := by simp [Statement, row, Sys2Proof.natOfBytes, Sys2Proof.encode]
theorem wakeContinue : Statement .wakeContinue := by unfold Statement; decide
theorem wakeFlush : Statement .wakeFlush := by unfold Statement; decide
theorem arbStateCycle : Statement .arbStateCycle := by unfold Statement; decide
theorem arbStateTxHeld (r : Token) : Statement (.arbStateTxHeld r) := by simp [Statement, row, Sys2Proof.natOfBytes, Sys2Proof.encode]
theorem arbStateTxStop (r : Token) : Statement (.arbStateTxStop r) := by simp [Statement, row, Sys2Proof.natOfBytes, Sys2Proof.encode]
theorem arbStateWait : Statement .arbStateWait := by unfold Statement; decide
theorem arbStateTxFlush (r : Token) : Statement (.arbStateTxFlush r) := by simp [Statement, row, Sys2Proof.natOfBytes, Sys2Proof.encode]
theorem encPhaseStart : Statement .encPhaseStart := by unfold Statement; decide
theorem encPhaseWord : Statement .encPhaseWord := by unfold Statement; decide
theorem encPhaseEnd : Statement .encPhaseEnd := by unfold Statement; decide
theorem batchSrcBuf : Statement .batchSrcBuf := by unfold Statement; decide
theorem batchSrcQueue : Statement .batchSrcQueue := by unfold Statement; decide
theorem checksum (v : Packet) : Statement (.checksum v) := by simp [Statement, row, Sys2Proof.natOfBytes]
theorem singleKey (k : Key) : Statement (.singleKey k) := by simp [Statement, row, Sys2Proof.natOfBytes]
theorem encode (k : Key) (c : Channel) : Statement (.encode k c) := by simp [Statement, row, Sys2Proof.natOfBytes]
theorem validate (p : Packet) : Statement (.validate p) := by simp [Statement, row, Sys2Proof.natOfBytes]
theorem wireBit (p : Packet) (i : BitVec 4) : Statement (.wireBit p i) := by simp [Statement, row, Sys2Proof.natOfBytes]
theorem frameSeq (batch : List Packet) : Statement (.frameSeq batch) := by simp [Statement, row, Sys2Proof.natOfBytes]
theorem encReset : Statement .encReset := by simp [Statement, row, Sys2Proof.natOfBytes]
theorem drive (cap : Nat) : Statement (.drive cap) := by simp [Statement, row, Sys2Proof.natOfBytes]
theorem waveform (syms : List Symbol) : Statement (.waveform syms) := by simp [Statement, row, Sys2Proof.natOfBytes]
theorem isStart (sym : Symbol) : Statement (.isStart sym) := by simp [Statement, row, Sys2Proof.natOfBytes]
theorem classify (sym : Symbol) : Statement (.classify sym) := by simp [Statement, row, Sys2Proof.natOfBytes]
theorem decode (capture : List Symbol) : Statement (.decode capture) := by simp [Statement, row, Sys2Proof.natOfBytes]
theorem arbHeld (part : StepPart) : Statement (.arbHeld part) := by simp [Statement, row, Sys2Proof.natOfBytes]
theorem arbStop (part : StepPart) : Statement (.arbStop part) := by simp [Statement, row, Sys2Proof.natOfBytes]
theorem arbFlush (part : StepPart) : Statement (.arbFlush part) := by simp [Statement, row, Sys2Proof.natOfBytes]
theorem arbCycle : Statement .arbCycle := by simp [Statement, row, Sys2Proof.natOfBytes]
theorem arbWait : Statement .arbWait := by simp [Statement, row, Sys2Proof.natOfBytes]
theorem transmit (part : TransmitPart) : Statement (.transmit part) := by simp [Statement, row, Sys2Proof.natOfBytes]

end Sys2Proof.Laws.TablePattern
end

