-- ==== Sys2Proof/Tests/Slice0.lean ====
section
/-! SUPPORT. Tests. Expected values come from the worked vectors of spec/95_test_vectors.md (named L, DV, X, K, A there) and from
the encodings of spec/30_encoding.md written out by hand. The theorems `witness_<statement>` show a concrete state and operands
that meet the hypotheses of that statement, at the borders of their ranges where it has several clauses. -/

namespace Sys2Proof.Tests

open Sys2Proof Sys2Proof.Machine Sys2Proof.Safety

/-! ### States -/

/-- One observation of a next state. -/
def after {α : Type} (f : State → α) : StepResult → Option α
  | .next s => some (f s)
  | .fault _ => none
  | .refused _ => none

/-- The last returned value of a next state. -/
def returned (r : StepResult) : Option Value :=
  match r with
  | .next s => s.values.getLast?
  | .fault _ => none
  | .refused _ => none

/-- The refusal of an operation. -/
def refusalOf : StepResult → Option Refusal
  | .next _ => none
  | .fault _ => none
  | .refused r => some r

/-- The reset state with the channel 0. -/
def base : State := { State.reset with channel := 0 }

/-- WAIT with nothing pending. -/
def waiting : State := { base with arbState := .wait }

/-- The state before vector A15: two entries built for channel 0, both wake bits, channel 1. -/
def queued : State :=
  { waiting with qMem := [(0, 0x24), (1, 0x81), (2, 0x0E), (3, 0x01)], qCount := 2, wakeContinue := true, wakeFlush := true, channel := 1 }

/-- The state before vector A1: the key LF is held. -/
def held : State := { base with heldKey := 2 }

/-- The state after vector A1, which is the start of the DV vectors of one packet. -/
def sending : State := { held with txBuf0 := 0x8124, batchN := 1, arbState := .txHeld }

/-- `sending` with its batch complete. -/
def sent : State := { sending with encDone := true }

/-- The state after vector A4. -/
def stopping : State :=
  { base with stopSent := false, txBuf0 := 0x010E, txBuf1 := 0x010E, batchN := 2, arbState := .txStop }

/-- The state after vector A15. -/
def flushing : State :=
  { base with
    qMem := [(0, 0x25), (1, 0x91), (2, 0x0F), (3, 0x11)], qCount := 2, qLock := true, batchSrc := .queue, batchN := 2
    arbState := .txFlush, channel := 1 }

/-- The symbols of a string of the notation of 95_test_vectors.md: 0 and 1 are bits, 2 is Start, 3 is End. -/
def syms (l : List Nat) : List Symbol :=
  l.map fun n => if n = 0 then ⟨158, 263⟩ else if n = 1 then ⟨158, 553⟩ else if n = 2 then ⟨158, 950⟩ else ⟨158, 30000⟩

/-- A capture with these spaces. -/
def spaces (l : List Nat) : List Symbol := l.map fun n => ⟨0, BitVec.ofNat 16 n⟩

/-! ### WellFormed: one ill-formed term for each check -/

theorem test_wellFormed_heldKey_empty : Instr.wellFormed (.heldKey []) = false := by decide
theorem test_wellFormed_setChan_two_bytes : Instr.wellFormed (.setChan [1, 2]) = false := by decide
theorem test_wellFormed_frameSeq_empty : Instr.wellFormed (.frameSeq []) = false := by decide
theorem test_wellFormed_overflow_of_zero : Instr.wellFormed (.diagAppendOverflow 0) = false := by decide

/-- One byte, or one symbol, more than the OPEN bound, whatever its value. -/
theorem test_wellFormed_too_long :
    Instr.wellFormed (.append (List.replicate (Config.payloadMax + 1) 0)) = false ∧
    Instr.wellFormed (.flush (List.replicate (Config.payloadMax + 1) 0)) = false ∧
    Instr.wellFormed (.decode (List.replicate (Config.captureMax + 1) ⟨0, 0⟩)) = false := by
  simp [Instr.wellFormed, payloadFits]

/-! ### Decoding: the words of spec/30_encoding.md -/

/-- 1 000 0001 0010 0100: singleKey 1, channel 0, reserved 1, key LF, checksum 4 (R60). -/
theorem test_decode_pkt_bits : decodeTableWord 16 0b1000000100100100 = some (.pktLf 0 4) := by decide

/-- Column "ch 0" of section 2 for the keys 0 to 7, channels 1 and 7 for the two borders of the field. -/
theorem test_decode_pkt_low_keys :
    decodeTableWord 16 0x110F = some (.pktStop 1 0xF) ∧ decodeTableWord 16 0xF110 = some (.pktLb 7 0) ∧
    decodeTableWord 16 0x8124 = some (.pktLf 0 4) ∧ decodeTableWord 16 0x013D = some (.pktLbLf 0 0xD) ∧
    decodeTableWord 16 0x8142 = some (.pktRf 0 2) ∧ decodeTableWord 16 0x015B = some (.pktLbRf 0 0xB) ∧
    decodeTableWord 16 0x0168 = some (.pktLfRf 0 8) ∧ decodeTableWord 16 0x0179 = some (.pktLbLfRf 0 9) := by decide

theorem test_decode_pkt_high_keys :
    decodeTableWord 16 0x818E = some (.pktRb 0 0xE) ∧ decodeTableWord 16 0x0197 = some (.pktLbRb 0 7) ∧
    decodeTableWord 16 0x01A4 = some (.pktLfRb 0 4) ∧ decodeTableWord 16 0x01B5 = some (.pktLbLfRb 0 5) ∧
    decodeTableWord 16 0x01C2 = some (.pktRfRb 0 2) ∧ decodeTableWord 16 0x01D3 = some (.pktLbRfRb 0 3) ∧
    decodeTableWord 16 0x01E0 = some (.pktLfRfRb 0 0) ∧ decodeTableWord 16 0x71F6 = some (.pktLbLfRfRb 7 6) := by decide

/-- A word whose reserved nibble or single-key bit is wrong is no row (R62, R63). -/
theorem test_decode_pkt_artifacts :
    decodeTableWord 16 0x8024 = none ∧ decodeTableWord 16 0x0124 = none ∧ decodeTableWord 16 0x8130 = none := by decide

/-- 0000000010011110 0000001110110110: mark 158, space 950 (R65, R66). -/
theorem test_decode_sym_bits : decodeTableWord 32 0b00000000100111100000001110110110 = some .symStart := by decide

theorem test_decode_sym :
    decodeTableWord 32 0x009E0107 = some .symBit0 ∧ decodeTableWord 32 0x009E0229 = some .symBit1 ∧
    decodeTableWord 32 0x009E7530 = some .symEnd ∧ decodeTableWord 32 0x009E03B7 = none := by decide

/-- The command words of vectors K1, K12, K14, K19 (R69: op 00, 01, 10, 11). -/
theorem test_decode_cmd :
    decode ⟨.cmd, [0b00000000, 0x24, 0x81, 0x0E, 0x01]⟩ = some (.append [0x24, 0x81, 0x0E, 0x01]) ∧
    decode ⟨.cmd, [0b00000001]⟩ = some (.flush []) ∧ decode ⟨.cmd, [0b00000010, 0x02]⟩ = some (.heldKey [0x02]) ∧
    decode ⟨.cmd, [0b00000011, 0x01]⟩ = some (.setChan [0x01]) := by decide

/-- The result codes 000 to 100 (R70). -/
theorem test_decode_out :
    decode ⟨.out, [0b000]⟩ = some .outDone ∧ decode ⟨.out, [0b001]⟩ = some .outInvalidArg ∧
    decode ⟨.out, [0b010]⟩ = some .outTimeout ∧ decode ⟨.out, [0b011]⟩ = some .outFail ∧
    decode ⟨.out, [0b100]⟩ = some .outUnknownError ∧ decode ⟨.out, [0b101]⟩ = none := by decide

/-- The diagnostic codes 00, 01, 10 with what they carry (R71). -/
theorem test_decode_diag :
    decode ⟨.diag, [0b00]⟩ = some .diagFlushEmpty ∧ decode ⟨.diag, [0b01, 0x02]⟩ = some (.diagAppendOverflow 2) ∧
    decode ⟨.diag, [0b10, 0x25, 0x81]⟩ = some (.diagInvalidFrame 0x8125) ∧ decode ⟨.diag, [0b11]⟩ = none := by decide

/-- The wake codes 0 and 1 (R72). -/
theorem test_decode_wake :
    decode ⟨.wake, [0b0]⟩ = some .wakeContinue ∧ decode ⟨.wake, [0b1]⟩ = some .wakeFlush ∧
    decode ⟨.wake, [0b10]⟩ = none := by decide

/-- The values 000 to 100 of `arb_state`, 00 to 10 of `enc_phase`, 0 and 1 of `batch_src` (R73). -/
theorem test_decode_internal_codes :
    decode ⟨.arbState, [0b000]⟩ = some .arbStateCycle ∧ decode ⟨.arbState, [0b001, 0]⟩ = some (.arbStateTxHeld .done) ∧
    decode ⟨.arbState, [0b010, 3]⟩ = some (.arbStateTxStop .fail) ∧ decode ⟨.arbState, [0b011]⟩ = some .arbStateWait ∧
    decode ⟨.arbState, [0b100, 4]⟩ = some (.arbStateTxFlush .unknownError) ∧
    decode ⟨.encPhase, [0b00]⟩ = some .encPhaseStart ∧ decode ⟨.encPhase, [0b01]⟩ = some .encPhaseWord ∧
    decode ⟨.encPhase, [0b10]⟩ = some .encPhaseEnd ∧ decode ⟨.batchSrc, [0b0]⟩ = some .batchSrcBuf ∧
    decode ⟨.batchSrc, [0b1]⟩ = some .batchSrcQueue := by decide

/-- The CALL rows with values laid out low byte first (log 10). -/
theorem test_decode_calls :
    decode ⟨.call .checksum, [0x20, 0x81]⟩ = some (.checksum 0x8120) ∧
    decode ⟨.call .singleKey, [0x08]⟩ = some (.singleKey 8) ∧ decode ⟨.call .singleKey, [0x10]⟩ = none ∧
    decode ⟨.call .encode, [0x0F, 0x07]⟩ = some (.encode 0xF 7) ∧
    decode ⟨.call .validate, [0x24, 0x81]⟩ = some (.validate 0x8124) ∧
    decode ⟨.call .wireBit, [0x24, 0x81, 0x0F]⟩ = some (.wireBit 0x8124 15) ∧
    decode ⟨.call .frameSeq, [0x24, 0x81, 0x0E, 0x01]⟩ = some (.frameSeq [0x8124, 0x010E]) ∧
    decode ⟨.call .encReset, []⟩ = some .encReset ∧ decode ⟨.call .drive, [0x00, 0x09]⟩ = some (.drive 2304) ∧
    decode ⟨.call .waveform, [0xB6, 0x03, 0x9E, 0x00]⟩ = some (.waveform [⟨158, 950⟩]) ∧
    decode ⟨.call .isStart, [0xB6, 0x03, 0x9E, 0x00]⟩ = some (.isStart ⟨158, 950⟩) ∧
    decode ⟨.call .classify, [0x07, 0x01, 0x9E, 0x00]⟩ = some (.classify ⟨158, 263⟩) ∧
    decode ⟨.call .decode, [0x07, 0x01, 0x9E, 0x00]⟩ = some (.decode [⟨158, 263⟩]) := by decide

theorem test_decode_arbiter_calls :
    decode ⟨.call .arbHeld, [0]⟩ = some (.arbHeld .start) ∧
    decode ⟨.call .arbStop, [1, 2]⟩ = some (.arbStop (.complete .timeout)) ∧
    decode ⟨.call .arbFlush, [1, 1]⟩ = some (.arbFlush (.complete .invalidArg)) ∧
    decode ⟨.call .arbCycle, []⟩ = some .arbCycle ∧ decode ⟨.call .arbWait, []⟩ = some .arbWait ∧
    decode ⟨.call .transmit, [0]⟩ = some (.transmit .start) ∧
    decode ⟨.call .transmit, [1, 5]⟩ = some (.transmit (.drive 5)) ∧
    decode ⟨.call .transmit, [2, 0]⟩ = some (.transmit (.finish .done)) := by decide

/-- A word presented as the next operation is the one the next step runs. -/
theorem test_withFetchWord : returned (step (base.withFetchWord 16 0x8124)) = some (.row 0x8124 true) := by decide

/-! ### Packets (sections 1 to 3) -/

theorem test_pkt_low_keys :
    returned (exec (.pktStop 1 0xF) base) = some (.row 0x110F true) ∧
    returned (exec (.pktLb 7 0) base) = some (.row 0xF110 true) ∧
    returned (exec (.pktLf 0 5) base) = some (.row 0x8124 false) ∧
    returned (exec (.pktLbLf 2 0xF) base) = some (.row 0x213F true) ∧
    returned (exec (.pktRf 1 3) base) = some (.row 0x9143 true) ∧
    returned (exec (.pktLbRf 0 0xB) base) = some (.row 0x015B true) ∧
    returned (exec (.pktLfRf 3 0xB) base) = some (.row 0x316B true) ∧
    returned (exec (.pktLbLfRf 7 0xE) base) = some (.row 0x717E true) := by decide

theorem test_pkt_high_keys :
    returned (exec (.pktRb 1 0xF) base) = some (.row 0x918F true) ∧
    returned (exec (.pktLbRb 7 0) base) = some (.row 0x7190 true) ∧
    returned (exec (.pktLfRb 4 0) base) = some (.row 0x41A0 true) ∧
    returned (exec (.pktLbLfRb 5 0) base) = some (.row 0x51B0 true) ∧
    returned (exec (.pktRfRb 2 0) base) = some (.row 0x21C0 true) ∧
    returned (exec (.pktLbRfRb 3 0) base) = some (.row 0x31D0 true) ∧
    returned (exec (.pktLfRfRb 0 1) base) = some (.row 0x01E0 false) ∧
    returned (exec (.pktLbLfRfRb 7 6) base) = some (.row 0x71F6 true) := by decide

theorem test_checksum :
    returned (exec (.checksum 0xFFFF) base) = some (.nibble 0x0) ∧
    returned (exec (.checksum 0x8124) base) = some (.nibble 0x4) := by decide

theorem test_singleKey :
    returned (exec (.singleKey 8) base) = some (.bit true) ∧ returned (exec (.singleKey 0xF) base) = some (.bit false) := by decide

theorem test_encode :
    returned (exec (.encode 0xF 7) base) = some (.packet 0x71F6) ∧
    returned (exec (.encode 0 0) base) = some (.packet 0x010E) := by decide

theorem test_validate :
    returned (exec (.validate 0x2481) base) = some (.verdict true) ∧
    returned (exec (.validate 0x8125) base) = some (.verdict false) := by decide

/-! ### The encoder (section 4) -/

theorem test_wireBit :
    returned (exec (.wireBit 0x8124 5) base) = some (.bit true) ∧
    returned (exec (.wireBit 0x8124 7) base) = some (.bit false) := by decide

/-- The frame of 0x00FF: "low byte goes first". -/
theorem test_frameSeq :
    returned (exec (.frameSeq [0x00FF]) base) =
      some (.symbols (syms [2, 1, 1, 1, 1, 1, 1, 1, 1, 0, 0, 0, 0, 0, 0, 0, 0, 3])) := by decide

theorem test_waveform :
    returned (exec (.waveform [⟨158, 950⟩]) base) = some (.waveform [⟨.active, 158⟩, ⟨.idle, 950⟩]) := by decide

/-- Section 4.5, first row, where the arbiter begins a transmission; mid-transmission and where none begins it is refused. -/
theorem test_encReset :
    after (fun s => (s.encPhase, s.encIndex, s.encBit, s.encDone, s.encTotal))
      (exec .encReset { held with encPhase := .word, encIndex := 2, encBit := 9, encTotal := 41 }) =
    some (.start, 0, 0, false, 41) ∧
    refusalOf (exec .encReset sending) = some .resetOutsideBegin ∧
    refusalOf (exec .encReset base) = some .resetOutsideBegin := by decide

/-- DV1, the first call. -/
theorem test_drive_part :
    after (fun s => (s.symbols, s.encPhase, s.encIndex, s.encBit, s.encDone)) (exec (.drive 5) sending) =
      some (syms [2, 0, 0, 1, 0], .word, 0, 4, false) := by decide

/-- DV3: capacity exactly 18, with `enc_total` wrapping. -/
theorem test_drive_whole :
    after (fun s => (s.symbols, s.encPhase, s.encIndex, s.encBit, s.encDone, s.encTotal))
      (exec (.transmit (.drive 18)) { sending with encTotal := 0xFFFFFFFF }) =
    some (syms [2, 0, 0, 1, 0, 0, 1, 0, 0, 1, 0, 0, 0, 0, 0, 0, 1, 3], .start, 0, 0, true, 0) := by decide

/-- Across the border of two frames, as in DV7: End of packet 0, then Start and the first bit of 0x110F, whose wire word is
0x0F11. -/
theorem test_drive_queue :
    after (fun s => (s.symbols, s.encPhase, s.encIndex, s.encBit))
      (exec (.drive 3) { flushing with encPhase := .fin, encIndex := 0 }) =
    some (syms [3, 2, 0], .word, 1, 1) := by decide

theorem test_encPhase :
    after (fun s => (s.symbols, s.encPhase, s.encBit)) (exec .encPhaseStart sending) = some (syms [2], .word, 0) ∧
    after (fun s => (s.symbols, s.encPhase, s.encBit))
      (exec .encPhaseWord { sending with encPhase := .word, encBit := 15 }) = some (syms [1], .fin, 0) ∧
    after (fun s => (s.symbols, s.encPhase, s.encDone)) (exec .encPhaseEnd { sending with encPhase := .fin }) =
      some (syms [3], .start, true) ∧
    refusalOf (exec .encPhaseEnd sending) = some .otherPhase := by decide

theorem test_batchSrc :
    returned (exec .batchSrcBuf sending) = some (.packet 0x8124) ∧
    returned (exec .batchSrcQueue { flushing with encIndex := 1 }) = some (.packet 0x110F) ∧
    refusalOf (exec .batchSrcQueue { flushing with encIndex := 2 }) = some .notPresented ∧
    refusalOf (exec .batchSrcQueue { flushing with qCount := 0, qLock := false, arbState := .cycle }) =
      some .notPresented := by decide

/-- WAVEFORM on the line, symbol by symbol (R123). -/
theorem test_sym :
    after (fun s => (s.line, s.txPending)) (exec .symStart { sending with txPending := syms [2, 0] }) =
      some ([⟨.active, 158⟩, ⟨.idle, 950⟩], syms [0]) ∧
    after (fun s => s.line) (exec .symBit0 { sending with txPending := syms [0] }) =
      some [⟨.active, 158⟩, ⟨.idle, 263⟩] ∧
    after (fun s => s.line) (exec .symBit1 { sending with txPending := syms [1] }) =
      some [⟨.active, 158⟩, ⟨.idle, 553⟩] ∧
    after (fun s => s.line) (exec .symEnd { sending with txPending := syms [3] }) =
      some [⟨.active, 158⟩, ⟨.idle, 30000⟩] ∧
    refusalOf (exec .symEnd { sending with txPending := syms [2] }) = some .notNextSymbol := by decide

/-! ### The decoder (section 5) -/

theorem test_isStart :
    returned (exec (.isStart ⟨0, 799⟩) base) = some (.verdict false) ∧
    returned (exec (.isStart ⟨0, 800⟩) base) = some (.verdict true) ∧
    returned (exec (.isStart ⟨0, 1100⟩) base) = some (.verdict true) ∧
    returned (exec (.isStart ⟨0, 1101⟩) base) = some (.verdict false) := by decide

theorem test_classify :
    returned (exec (.classify ⟨0, 319⟩) base) = some (.bit false) ∧
    returned (exec (.classify ⟨0, 320⟩) base) = some (.bit true) := by decide

/-- X8: NAT(0x8125). -/
theorem test_decode_invalid :
    after (fun s => (s.decoded, s.diags))
      (exec (.decode (syms [2, 1, 0, 0, 0, 0, 0, 0, 1, 0, 0, 1, 0, 0, 1, 0, 1, 3])) base) =
    some ([[⟨0x8125, false⟩]], [.invalidFrame 0x8125]) := by decide

/-- X10: a false start marker swallows the true one. -/
theorem test_decode_false_start :
    after (fun s => s.decoded)
      (exec (.decode (spaces [900] ++ syms [2, 1, 0, 0, 0, 0, 0, 0, 1, 0, 0, 1, 0, 0, 1, 0, 0, 3])) base) =
    some [[⟨0xC092, false⟩]] := by decide

/-! ### Commands (section 6) -/

/-- K2: an odd last byte is ignored. -/
theorem test_append_odd :
    after (fun s => (s.qMem, s.qCount, s.wakeFlush, s.diags)) (exec (.append [0x24, 0x81, 0x0E]) base) =
      some ([(0, 0x24), (1, 0x81)], 1, true, []) := by decide

/-- K7: one unit fits at entry 127 and two are dropped. -/
theorem test_append_overflow :
    after (fun s => (s.qMem, s.qCount, s.wakeFlush, s.diags))
      (exec (.append [0x24, 0x81, 0x17, 0x81, 0x42, 0x81]) { base with qCount := 127 }) =
    some ([(254, 0x24), (255, 0x81)], 128, true, [.appendOverflow 2]) := by decide

/-- K12 and K13. -/
theorem test_flush :
    after (fun s => (s.wakeFlush, s.diags)) (exec (.flush []) base) = some (false, [.flushEmpty]) ∧
    after (fun s => (s.wakeFlush, s.diags)) (exec (.flush [7]) { base with qCount := 3 }) = some (true, []) := by decide

/-- K16 and K22. -/
theorem test_heldKey :
    after (fun s => (s.heldKey, s.wakeContinue, s.stopSent)) (exec (.heldKey [0x10]) held) = some (0, true, true) ∧
    refusalOf (exec (.heldKey [2, 0]) base) = some .heldKeyLength := by decide

/-- K20 and K23. -/
theorem test_setChan :
    after (fun s => (s.channel, s.wakeContinue, s.wakeFlush)) (exec (.setChan [0x09]) base) = some (1, false, false) ∧
    refusalOf (exec (.setChan []) base) = some .setChanLength := by decide

/-- K24 and K25: an APPEND waits while the queue is locked, a HELDKEY does not. -/
theorem test_locked_queue :
    after (fun s => (s.port, s.qCount)) (exec (.append [0x24, 0x81]) flushing) = some ([.append [0x24, 0x81]], 2) ∧
    after (fun s => (s.heldKey, s.wakeContinue)) (exec (.heldKey [2]) flushing) = some (2, true) := by decide

/-! ### Codes -/

/-- A17 and A18. -/
theorem test_out_flush :
    after (fun s => (s.tokens, s.qCount, s.qLock, s.arbState)) (exec .outDone { flushing with encDone := true }) =
      some ([.done], 0, false, .cycle) ∧
    after (fun s => (s.tokens, s.arbState)) (exec .outInvalidArg flushing) = some ([.invalidArg], .cycle) := by decide

/-- A9, A11 and A19. -/
theorem test_out_others :
    after (fun s => (s.tokens, s.stopSent, s.arbState)) (exec .outFail sending) = some ([], false, .cycle) ∧
    after (fun s => (s.tokens, s.stopSent, s.arbState)) (exec .outTimeout stopping) = some ([], true, .cycle) ∧
    after (fun s => (s.tokens, s.arbState)) (exec .outUnknownError flushing) = some ([.unknownError], .cycle) := by decide

theorem test_diag_and_wake :
    after State.diags (exec .diagFlushEmpty base) = some [.flushEmpty] ∧
    after State.diags (exec (.diagAppendOverflow 72) base) = some [.appendOverflow 72] ∧
    after State.diags (exec (.diagInvalidFrame 0xC092) base) = some [.invalidFrame 0xC092] ∧
    after (fun s => (s.wakeContinue, s.arbState)) (exec .wakeContinue { waiting with wakeContinue := true }) =
      some (false, .cycle) ∧
    after (fun s => (s.wakeContinue, s.wakeFlush, s.arbState)) (exec .wakeFlush queued) = some (false, false, .txFlush) ∧
    refusalOf (exec .wakeContinue queued) = some .stepNotEnabled ∧
    refusalOf (exec .wakeFlush waiting) = some .stepNotEnabled := by decide

/-! ### The arbiter (section 7) -/

/-- A1, A3: the held key, by ARB_CYCLE and by ARB_HELD begin. -/
theorem test_arbCycle_held :
    after (fun s => (s.txBuf0, s.batchSrc, s.batchN, s.arbState)) (exec .arbCycle held) =
      some (0x8124, .buf, 1, .txHeld) ∧
    after (fun s => s.txBuf0) (exec (.arbHeld .start) { held with heldKey := 6, channel := 3 }) = some 0x316B := by decide

/-- A5, A6: the stop pair by ARB_STOP begin, and WAIT by the row of the state. -/
theorem test_arbCycle_stop :
    after (fun s => (s.txBuf0, s.txBuf1, s.batchN, s.arbState))
      (exec (.arbStop .start) { base with stopSent := false, channel := 5 }) = some (0x510B, 0x510B, 2, .txStop) ∧
    after State.arbState (exec .arbStateCycle base) = some .wait := by decide

/-- A12, A13, A14. -/
theorem test_arbWait :
    after id (exec .arbStateWait waiting) = some waiting ∧
    after (fun s => (s.wakeContinue, s.arbState)) (exec .arbWait { waiting with wakeContinue := true }) =
      some (false, .cycle) ∧
    after (fun s => (s.wakeFlush, s.qLock, s.arbState)) (exec .arbWait { waiting with wakeFlush := true }) =
      some (false, false, .cycle) := by decide

/-- A15. -/
theorem test_arbFlush :
    after (fun s => (s.qMem, s.qLock, s.batchSrc, s.batchN, s.arbState)) (exec (.arbFlush .start) queued) =
      some ([(0, 0x25), (1, 0x91), (2, 0x0F), (3, 0x11)], true, .queue, 2, .txFlush) := by decide

/-- A8, A10, A17 by the rows of the states and the completions of the sub-steps. -/
theorem test_completions :
    after (fun s => (s.stopSent, s.line, s.arbState)) (exec (.arbStateTxHeld .done) { sent with txPending := syms [3] }) =
      some (false, [⟨.active, 158⟩, ⟨.idle, 30000⟩], .cycle) ∧
    after (fun s => (s.stopSent, s.arbState)) (exec (.arbHeld (.complete .fail)) sending) = some (false, .cycle) ∧
    after (fun s => (s.stopSent, s.arbState)) (exec (.arbStateTxStop .done) { stopping with encDone := true }) =
      some (true, .cycle) ∧
    after (fun s => (s.stopSent, s.arbState)) (exec (.arbStop (.complete .timeout)) stopping) = some (true, .cycle) ∧
    after (fun s => (s.tokens, s.qCount, s.arbState)) (exec (.arbStateTxFlush .timeout) flushing) =
      some ([.timeout], 0, .cycle) ∧
    after (fun s => (s.tokens, s.qLock)) (exec (.arbFlush (.complete .fail)) flushing) = some ([.fail], false) := by decide

/-- A20, and TRANSMIT's begin and end. -/
theorem test_transmit :
    refusalOf (exec (.transmit (.finish .done)) flushing) = some .doneBeforeEncoder ∧
    refusalOf (exec (.transmit .start) sending) = some .transmissionOutstanding ∧
    after (fun s => (s.encPhase, s.encDone)) (exec (.transmit .start) { held with encPhase := .fin, encDone := true }) =
      some (.start, false) ∧
    refusalOf (exec (.transmit .start) base) = some .resetOutsideBegin ∧
    after State.tokens (exec (.transmit (.finish .timeout)) flushing) = some [.timeout] := by decide

/-- R194, R240: with nothing left to end it, a transmission ends with `timeout`. -/
theorem test_step_timeout :
    after (fun s => (s.tokens, s.qCount, s.qLock, s.arbState)) (step flushing) = some ([.timeout], 0, false, .cycle) ∧
    after (fun s => (s.tokens, s.stopSent, s.arbState)) (step stopping) = some ([], true, .cycle) := by decide

/-! ### Witnesses: the hypotheses of the statements can be met -/

/-- The batch of `sending` is its one packet. -/
theorem batch_sending : BatchIs sending [0x8124] := by
  refine ⟨rfl, fun i h => ?_⟩
  obtain rfl : i = 0 := by simpa using h
  rfl

/-- The batch of `flushing` is its queue, whose two entries are vector A15's. -/
theorem batch_flushing : BatchIs flushing [0x9125, 0x110F] := by
  refine ⟨rfl, fun i h => ?_⟩
  have : i = 0 ∨ i = 1 := by simp at h; omega
  rcases this with rfl | rfl <;> rfl

theorem queue_queued : QueueIs queued [0x8124, 0x010E] := by
  refine ⟨rfl, fun i h => ?_⟩
  have : i = 0 ∨ i = 1 := by simp at h; omega
  rcases this with rfl | rfl <;> rfl

/-- The invariant holds in a state with a transmission outstanding. -/
theorem inv_flushing : BlockInv flushing := by
  have hb : ∀ i, i < 2 → i = 0 ∨ i = 1 := fun i h => by omega
  refine ⟨by decide, by decide, ?_, by decide, by unfold CursorLegal; decide, by decide, by decide, by decide, ?_, by decide,
    by decide, by decide, by decide, ?_, by decide⟩
  · intro i h
    rcases hb i h with rfl | rfl <;> exact ⟨_, rfl⟩
  · intro i h
    rcases hb i h with rfl | rfl <;> exact ⟨_, rfl⟩
  · intro _ i p h
    rcases hb i (readBatch_lt h) with rfl | rfl
    · obtain rfl : (0x9125 : Packet) = p := by injection h
      decide
    · obtain rfl : (0x110F : Packet) = p := by injection h
      decide

theorem witness_DecodeEncodeEveryOperation : encode (.heldKey [2]) = ⟨.cmd, [2, 2]⟩ := by decide

theorem witness_EncodeDecodeCodedFormats :
    (Request.mk .pkt [0x24, 0x81]).iface ∈ [Iface.pkt, .sym, .cmd, .out, .wake, .arbState, .encPhase, .batchSrc] ∧
    decode ⟨.pkt, [0x24, 0x81]⟩ = some (.pktLf 0 4) := by decide

theorem witness_CodesThatNeverOccurAreRefused :
    5 ≤ (5 : Byte).toNat ∧ 3 ≤ (3 : Byte).toNat ∧ decode ⟨.out, [4]⟩ ≠ none ∧ decode ⟨.encPhase, [2]⟩ ≠ none := by decide

theorem witness_StepRunsDecodedOperation :
    ({ base with inbox := [.request ⟨.pkt, [0x24, 0x81]⟩] } : State).inbox = .request ⟨.pkt, [0x24, 0x81]⟩ :: [] ∧
    decode ⟨.pkt, [0x24, 0x81]⟩ = some (.pktLf 0 4) := by decide

theorem witness_StepWithoutDecodedOperation :
    decode ⟨.out, [5]⟩ = none ∧ base.inbox = [] ∧ base.port = [] ∧ base.arbState = .cycle ∧ waiting.inbox = [] ∧
    waiting.port = [] ∧ waiting.arbState = .wait ∧ sending.inbox = [] ∧ sending.port = [] ∧ outstanding sending = true ∧
    ({ flushing with port := [.heldKey 0, .flush] } : State).port = .heldKey 0 :: [.flush] ∧
    acceptable (.heldKey 0) { flushing with port := [.heldKey 0, .flush] } = true ∧
    ({ flushing with port := [.flush] } : State).port = .flush :: [] ∧
    acceptable .flush { flushing with port := [.flush] } = false ∧ outstanding { flushing with port := [.flush] } = true := by
  decide

theorem witness_WaitingCommandIsAccepted :
    ({ base with inbox := [.accept], port := [.flush] } : State).inbox = .accept :: [] ∧
    ({ base with inbox := [.accept], port := [.flush] } : State).port = .flush :: [] ∧
    acceptable .flush { base with inbox := [.accept], port := [.flush] } = true ∧
    acceptable .flush { flushing with inbox := [.accept], port := [.flush] } = false := by decide

theorem witness_EveryStepKeepsInvariant : BlockInv flushing ∧ ∃ t, step flushing = .next t := ⟨inv_flushing, _, rfl⟩

theorem witness_NoFaultUnderInvariant : BlockInv flushing := inv_flushing

theorem witness_EncodeIsConforming : encodePacket 2 0 = encodePacket 2 0 ∧ encodePacket 2 0 ≠ encodePacket 2 1 := by decide

theorem witness_ValidateLaws :
    (15 : Nat) < 16 ∧ (0 : Nat) < 4 ∧ (3 : Nat) < 4 ∧ (0 : Nat) ≠ 3 ∧ validPacket 0x8124 = true := by decide

theorem witness_FrameSeqResult :
    ([0x8124, 0x010E] : List Packet) ≠ [] ∧ ([0x8124, 0x010E] : List Packet)[17 / 18]? = some 0x8124 ∧
    ([0x8124, 0x010E] : List Packet)[18 / 18]? = some 0x010E ∧ ([0x8124, 0x010E] : List Packet)[35 / 18]? = some 0x010E := by
  decide

/-- At the border of the two clauses: capacity 17 leaves End to emit, capacity 18 completes. -/
theorem witness_DriveClosedForm :
    outstanding sending = true ∧ sending.encDone = false ∧ BatchIs sending [0x8124] ∧ CursorLegal sending ∧
    sending.encIndex < ([0x8124] : List Packet).length ∧
    cursorPos sending + 17 < 18 * ([0x8124] : List Packet).length ∧
    18 * ([0x8124] : List Packet).length ≤ cursorPos sending + 18 :=
  ⟨by decide, by decide, batch_sending, by unfold CursorLegal; decide, by decide, by decide, by decide⟩

/-- Both ways a transmission begins, a state where none does, and one during a transmission. -/
theorem witness_EncResetResult :
    BeginEnabled held ∧ BeginEnabled { base with stopSent := false } ∧ BeginEnabled queued ∧ ¬ BeginEnabled base ∧
    outstanding sending = true := by
  unfold BeginEnabled; decide

theorem witness_DriveRefusals :
    outstanding base = false ∧ outstanding sent = true ∧ sent.encDone = true ∧
    outstanding { sending with batchN := 0 } = true ∧ ({ sending with batchN := 0 } : State).encDone = false ∧
    ({ sending with batchN := 0 } : State).batchN = 0 := by decide

theorem witness_DriveResumability :
    outstanding flushing = true ∧ flushing.encDone = false ∧ AtStart flushing ∧ BatchIs flushing [0x9125, 0x110F] ∧
    ([0x9125, 0x110F] : List Packet) ≠ [] ∧ [7, 0, 28].sum < 18 * ([0x9125, 0x110F] : List Packet).length ∧
    18 * ([0x9125, 0x110F] : List Packet).length ≤ [7, 0, 28].sum + 1 :=
  ⟨by decide, by decide, ⟨rfl, rfl, rfl⟩, batch_flushing, by decide, by decide, by decide⟩

/-- The three phases, in the Word phase at bit 14 and at bit 15, in the End phase of the first and of the last packet. -/
theorem witness_EncoderBeats :
    outstanding flushing = true ∧ flushing.encDone = false ∧ readBatch flushing flushing.encIndex = .ok 0x9125 ∧
    flushing.encPhase = .start ∧
    ({ flushing with encPhase := .word, encBit := 15 } : State).encPhase = .word ∧
    readBatch { flushing with encPhase := .word, encBit := 15 } 0 = .ok 0x9125 ∧
    ({ flushing with encPhase := .fin } : State).encIndex + 1 ≠ ({ flushing with encPhase := .fin } : State).batchN ∧
    readBatch { flushing with encPhase := .fin, encIndex := 1 } 1 = .ok 0x110F ∧
    ({ flushing with encPhase := .fin, encIndex := 1 } : State).encIndex + 1 = flushing.batchN :=
  ⟨rfl, rfl, rfl, rfl, rfl, rfl, by decide, rfl, rfl⟩

theorem witness_BatchSourceReads :
    outstanding base = false ∧ sent.encDone = true ∧
    ({ flushing with encIndex := 2 } : State).batchN ≤ ({ flushing with encIndex := 2 } : State).encIndex ∧
    outstanding stopping = true ∧ stopping.encDone = false ∧ outstanding flushing = true ∧ flushing.encDone = false ∧
    stopping.encIndex < stopping.batchN ∧ stopping.batchSrc = .buf ∧ stopping.encIndex = 0 ∧
    ({ stopping with encIndex := 1 } : State).encIndex < stopping.batchN ∧
    ({ flushing with encIndex := 1 } : State).encIndex < flushing.batchN ∧ flushing.batchSrc = .queue ∧
    readEntry flushing.qMem 1 = .ok 0x110F :=
  ⟨rfl, rfl, by decide, rfl, rfl, rfl, rfl, by decide, rfl, rfl, by decide, by decide, rfl, rfl⟩

theorem witness_SymbolsArePlayedInOrder :
    (Instr.symStart, (⟨158, 950⟩ : Symbol)) ∈ [(Instr.symStart, (⟨158, 950⟩ : Symbol)), (.symBit0, ⟨158, 263⟩),
      (.symBit1, ⟨158, 553⟩), (.symEnd, ⟨158, 30000⟩)] ∧
    ({ sending with txPending := syms [2, 0] } : State).txPending = ⟨158, 950⟩ :: syms [0] ∧
    ({ sending with txPending := syms [0] } : State).txPending.head? ≠ some ⟨158, 950⟩ ∧
    sending.txPending.head? ≠ some ⟨158, 950⟩ := by decide

/-- Both ends of the window with 16 symbols after them, one off each end, and 15 symbols after a start marker. -/
theorem witness_DecodeScan :
    (800 ≤ (800 : Dur).toNat ∧ (800 : Dur).toNat ≤ 1100 ∧ 16 ≤ (syms (List.replicate 16 1)).length) ∧
    (800 ≤ (1100 : Dur).toNat ∧ (1100 : Dur).toNat ≤ 1100 ∧ 16 ≤ (syms (List.replicate 16 1)).length) ∧
    (syms (List.replicate 16 1))[15]? = some ⟨158, 553⟩ ∧
    ¬ (800 ≤ (799 : Dur).toNat ∧ (799 : Dur).toNat ≤ 1100 ∧ 16 ≤ (syms (List.replicate 16 1)).length) ∧
    ¬ (800 ≤ (1101 : Dur).toNat ∧ (1101 : Dur).toNat ≤ 1100 ∧ 16 ≤ (syms (List.replicate 16 1)).length) ∧
    ¬ (800 ≤ (950 : Dur).toNat ∧ (950 : Dur).toNat ≤ 1100 ∧ 16 ≤ (syms (List.replicate 15 1)).length) := by decide

theorem witness_DecodeScanProperties :
    [(⟨1, 950⟩ : Symbol)].map Symbol.space = [(⟨2, 950⟩ : Symbol)].map Symbol.space ∧
    (∀ y ∈ spaces [100, 799, 1101], isStartSpace y.space.toNat = false) ∧ (spaces (List.replicate 16 950)).length ≤ 16 := by
  decide

/-- One unit fits at count 127 (K7), none at 128 (K8), and the empty queue (K3). -/
theorem witness_AppendResult :
    base.port = [] ∧ base.qLock = false ∧ base.qCount ≤ 128 ∧
    ({ base with qCount := 127 } : State).qCount ≤ 128 ∧ ({ base with qCount := 128 } : State).qCount ≤ 128 ∧
    0 < min (([0x24, 0x81, 0x17, 0x81] : List Byte).length / 2) (128 - 127) ∧
    ([0x24, 0x81, 0x17, 0x81] : List Byte)[2 * 0]? = some 0x24 ∧
    ([0x24, 0x81, 0x17, 0x81] : List Byte)[2 * 0 + 1]? = some 0x81 := by decide

theorem witness_FlushResult :
    base.port = [] ∧ base.qLock = false ∧ base.qCount = 0 ∧ queued.port = [] ∧ queued.qLock = false ∧ queued.qCount ≠ 0 := by
  decide

theorem witness_HeldKeyResult : flushing.port = [] ∧ flushing.qLock = true ∧ ([] : List Byte).length ≠ 1 := by decide

theorem witness_SetChanResult : flushing.port = [] ∧ ([1, 0] : List Byte).length ≠ 1 := by decide

theorem witness_CommandsWaitAtThePort :
    flushing.qLock = true ∧ ({ base with port := [.flush] } : State).port ≠ [] := by decide

/-- Each cause alone, both together, the empty queue, and a state where the row is refused. -/
theorem witness_EventAndWakeRows :
    waiting.arbState = .wait ∧ ({ waiting with wakeContinue := true } : State).wakeFlush = false ∧
    ({ waiting with wakeContinue := true } : State).wakeContinue = true ∧ queued.arbState = .wait ∧
    queued.wakeFlush = true ∧ queued.wakeContinue = true ∧ ({ queued with qCount := 0 } : State).qCount = 0 ∧
    base.arbState ≠ .wait ∧ waiting.wakeContinue = false ∧ waiting.wakeFlush = false := by decide

theorem witness_CycleStepResult :
    held.arbState = .cycle ∧ held.heldKey ≠ 0 ∧ ({ base with stopSent := false } : State).arbState = .cycle ∧
    ({ base with stopSent := false } : State).heldKey = 0 ∧ ({ base with stopSent := false } : State).stopSent = false ∧
    base.arbState = .cycle ∧ base.heldKey = 0 ∧ base.stopSent = true := by decide

theorem witness_HeldCompletionResult :
    sent.arbState = .txHeld ∧ (Token.done = .done → sent.encDone = true) ∧ sending.arbState = .txHeld ∧
    (Token.fail = .done → sending.encDone = true) ∧
    Instr.outFail ∈ [Instr.arbStateTxHeld .fail, .arbHeld (.complete .fail), resultInstr .fail, .transmit (.finish .fail)] := by
  decide

theorem witness_StopCompletionResult :
    stopping.arbState = .txStop ∧ (Token.timeout = .done → stopping.encDone = true) ∧
    ({ stopping with encDone := true } : State).arbState = .txStop ∧
    (Token.done = .done → ({ stopping with encDone := true } : State).encDone = true) ∧
    Instr.outTimeout ∈ [Instr.arbStateTxStop .timeout, .arbStop (.complete .timeout), resultInstr .timeout,
      .transmit (.finish .timeout)] := by decide

theorem witness_FlushCompletionResult :
    flushing.arbState = .txFlush ∧ (Token.invalidArg = .done → flushing.encDone = true) ∧
    ({ flushing with encDone := true } : State).arbState = .txFlush ∧
    (Token.done = .done → ({ flushing with encDone := true } : State).encDone = true) ∧
    Instr.outInvalidArg ∈ [Instr.arbStateTxFlush .invalidArg, .arbFlush (.complete .invalidArg), resultInstr .invalidArg,
      .transmit (.finish .invalidArg)] := by decide

theorem witness_ResultRefusals :
    outstanding base = false ∧ outstanding sending = true ∧ sending.encDone = false ∧ sending.arbState = .txHeld ∧
    stopping.arbState = .txStop ∧ stopping.encDone = false ∧ flushing.arbState = .txFlush ∧ flushing.encDone = false ∧
    (Instr.arbStateTxFlush .done, ArbState.txFlush) ∈ [(Instr.arbStateTxFlush .done, ArbState.txFlush),
      (.arbFlush (.complete .done), .txFlush)] := by decide

theorem witness_WaitStepResult :
    waiting.arbState = .wait ∧ waiting.wakeFlush = false ∧ waiting.wakeContinue = false ∧
    ({ waiting with wakeContinue := true } : State).wakeContinue = true ∧
    ({ waiting with wakeFlush := true } : State).wakeFlush = true ∧ ({ waiting with wakeFlush := true } : State).qCount = 0 := by
  decide

theorem witness_FlushBeginResult :
    queued.arbState = .wait ∧ queued.wakeFlush = true ∧ QueueIs queued [0x8124, 0x010E] ∧
    ([0x8124, 0x010E] : List Packet) ≠ [] := ⟨by decide, by decide, queue_queued, by decide⟩

theorem witness_TransmitBeginResult :
    BeginEnabled held ∧ BeginEnabled queued ∧ outstanding stopping = true ∧ outstanding waiting = false ∧
    ¬ BeginEnabled waiting := by
  unfold BeginEnabled; decide

theorem witness_StepsNotEnabledAreRefused :
    base.arbState = .cycle ∧ base.heldKey = 0 ∧ held.arbState = .cycle ∧ held.heldKey ≠ 0 ∧ base.stopSent = true ∧
    waiting.arbState = .wait ∧ waiting.wakeFlush = false ∧
    (Instr.arbWait, ArbState.wait) ∈ [(Instr.arbCycle, ArbState.cycle), (.arbStateCycle, .cycle), (.arbHeld .start, .cycle),
      (.arbStop .start, .cycle), (.arbWait, .wait)] ∧ sending.arbState ≠ .wait := by decide

/-- Each transition is taken by some operation. -/
theorem witness_ArbiterStateGraph :
    after State.arbState (exec .arbCycle held) = some .txHeld ∧
    after State.arbState (exec .arbCycle { base with stopSent := false }) = some .txStop ∧
    after State.arbState (exec .arbCycle base) = some .wait ∧
    after State.arbState (exec .arbWait queued) = some .txFlush ∧
    after State.arbState (exec .arbWait { waiting with wakeContinue := true }) = some .cycle ∧
    after State.arbState (exec .arbWait { waiting with wakeFlush := true }) = some .cycle := by decide

theorem witness_TokensOnlyFromFlushCompletion :
    flushing.arbState = .txFlush ∧ after State.arbState (exec .outFail flushing) = some .cycle ∧
    sending.arbState ≠ .txFlush ∧ after State.arbState (exec .outFail sending) = some .cycle := by decide

/-- A drive call keeps the flush in progress and the completion ends it. -/
theorem witness_QueueIsStableDuringFlush :
    flushing.qLock = true ∧ flushing.arbState = .txFlush ∧
    after State.arbState (step { flushing with inbox := [.request ⟨.call .drive, [7]⟩] }) = some .txFlush ∧
    after State.arbState (step { flushing with inbox := [.request ⟨.out, [3]⟩] }) = some .cycle ∧
    ({ flushing with port := [.append [0x24, 0x81]] } : State).inbox = [] ∧
    ({ flushing with port := [.append [0x24, 0x81]] } : State).port = .append [0x24, 0x81] :: [] := by decide

theorem witness_WriteRights :
    after State.heldKey (exec (.heldKey [2]) base) = some 2 ∧ after State.channel (exec (.setChan [1]) base) = some 1 ∧
    after State.stopSent (exec .outFail sending) = some false ∧ after State.encTotal (exec (.drive 18) sending) = some 1 ∧
    after State.encIndex (exec .encReset { held with encIndex := 2 }) = some 0 ∧
    after State.batchN (exec .arbCycle held) = some 1 ∧ after State.qCount (exec (.append [0x24, 0x81]) base) = some 1 ∧
    after State.qCount (exec .outFail flushing) = some 0 ∧ after State.qLock (exec .arbWait queued) = some true ∧
    after State.wakeContinue (exec (.heldKey [2]) base) = some true ∧
    after State.wakeFlush (exec (.append [0x24, 0x81]) base) = some true ∧
    after State.wakeFlush (exec .arbWait queued) = some false := by decide

theorem witness_QueueMemoryWriters :
    after State.qMem (exec (.append [0x24, 0x81]) base) ≠ some base.qMem ∧
    after State.qMem (exec .arbWait queued) ≠ some queued.qMem := by decide

theorem witness_WakeCausesAreSticky :
    queued.wakeFlush = true ∧ queued.wakeContinue = true ∧
    after (fun s => (s.wakeFlush, s.wakeContinue)) (exec .arbWait queued) = some (false, false) ∧
    after (fun s => (s.wakeFlush, s.wakeContinue)) (exec (.flush []) queued) = some (true, true) := by decide

theorem witness_HeldKeyStarvesTheQueue :
    ({ held with wakeFlush := true, qCount := 5 } : State).arbState = .cycle ∧ held.heldKey ≠ 0 ∧
    after State.arbState (exec .arbCycle { held with wakeFlush := true, qCount := 5 }) = some .txHeld := by decide

theorem witness_StopIsEdgeTriggered :
    base.arbState ≠ .txStop ∧ after State.arbState (exec .arbCycle { base with stopSent := false }) = some .txStop ∧
    sending.stopSent = true ∧ after State.stopSent (exec .outFail sending) = some false := by decide

theorem witness_OnlyTheAlphabetIsEmitted : after State.symbols (exec (.drive 1) sending) = some (syms [2]) := by decide

/-- `sending` before any symbol, and after Start was emitted and played while the first bit waits. -/
theorem carries_sending :
    LineCarries [] [0x8124] sending ∧
    LineCarries [] [0x8124] { sending with
      encPhase := .word, encBit := 1, line := waveform (syms [2]), txPending := syms [0] } :=
  ⟨⟨0, by decide, by decide, by decide⟩, 1, by decide, by decide, by decide⟩

/-- The states of the four clauses: a begin from a state that meets the invariant, an operation during the transmission, its
end by `done` and by another result, and a run of calls. -/
theorem witness_DoneTransmissionReachesTheLine_during :
    BlockInv held ∧ outstanding held = false ∧ after outstanding (exec .arbCycle held) = some true ∧ BlockInv flushing ∧ outstanding flushing = true ∧
    BatchIs flushing [0x9125, 0x110F] ∧ LineCarries [] [0x9125, 0x110F] flushing ∧
    after outstanding (exec (.drive 5) flushing) = some true ∧
    LineCarries [] [0x9125, 0x110F] { flushing with encDone := true, line := waveform (frameSeq [0x9125, 0x110F]) } :=
  ⟨by constructor <;> simp [held, base, State.reset, CursorLegal, outstanding, Memory.wf], rfl, by decide, inv_flushing, rfl, batch_flushing,
    ⟨0, by decide, by decide, by decide⟩, by decide, 36, by decide, by decide, by decide⟩

theorem witness_DoneTransmissionReachesTheLine :
    outstanding sending = true ∧ sending.encDone = false ∧ AtStart sending ∧ sending.txPending = [] ∧
    BatchIs sending [0x8124] ∧ ([0x8124] : List Packet) ≠ [] ∧ [5, 12].sum < 18 * ([0x8124] : List Packet).length ∧
    18 * ([0x8124] : List Packet).length ≤ [5, 12].sum + 1 :=
  ⟨by decide, by decide, ⟨rfl, rfl, rfl⟩, by decide, batch_sending, by decide, by decide, by decide⟩

end Sys2Proof.Tests
end

section
/-! PROOFS. The family 10_state.md, part one: the invariant of the block. Each shared operation of Machine/Ops.lean keeps it;
`step_moved` lists the ways a step uses them. Three shapes of change cover nearly all: the memory, the encoder and the batch
stay as they are (`blockInv_of_sameStore`), only the cursor moves (`blockInv_of_cursor`), a transmission begins
(`blockInv_of_begun`). APPEND, which writes the queue, is the fourth. -/

namespace Sys2Proof.Proofs.BlockState

open Sys2Proof Sys2Proof.Machine Sys2Proof.Safety

/-! ### Packets and entries -/

/-- Every packet the block builds is fit for transmission (40_packet_checksum.md R94, 30_encoding.md R62). -/
theorem conforming_encodePacket : ∀ (k : Key) (c : Channel), conforming (encodePacket k c) = true := by
  decide

/-- Writing entries leaves every readable entry readable. -/
theorem readable_writeEntries {m m' : Memory} {i j : Nat} {ps : List Packet} (h : writeEntries m i ps = .ok m')
    (hj : ∃ p, readEntry m j = .ok p) : ∃ p, readEntry m' j = .ok p := by
  by_cases hin : i ≤ j ∧ j < i + ps.length
  · obtain ⟨hread, -, -⟩ := writeEntries_cases h
    have := hread (j - i) (by omega)
    rw [Nat.add_sub_cancel' hin.1] at this
    exact ⟨_, this⟩
  · rwa [readEntry_writeEntries_other h (by omega)]

/-- A batch presented from `tx_buf` does not depend on the queue (10_state.md R22). -/
theorem readBatch_setQueue_buf {s : State} (m : Memory) (n : Nat) (hs : s.batchSrc = .buf) (i : Nat) :
    readBatch (s.setQueue m n) i = readBatch s i := by
  simp [readBatch, hs]

/-- The end of a transmission touches the line and the waiting symbols only, and none waits any more. -/
theorem settleLine_eq (s : State) (r : Token) :
    ∃ l, s.settleLine r = { s with line := l, txPending := [] } := by
  cases r <;> exact ⟨_, rfl⟩

/-! ### What the invariant says of a state -/

theorem unlocked_of_blockInv {s : State} {a : ArbState} (h : BlockInv s) (ha : s.arbState = a)
    (hne : a ≠ .txFlush := by decide) : s.qLock = false := by
  simpa [ha, hne] using h.lock_iff

/-- With the queue unlocked, a batch in flight comes from `tx_buf` (10_state.md R13, 44_arbiter.md R184, R186). -/
theorem batchSrc_buf_of_unlocked {s : State} (h : BlockInv s) (hl : s.qLock = false) (ho : outstanding s = true) :
    s.batchSrc = .buf := by
  rcases (outstanding_iff s).mp ho with ha | ha | ha
  · exact (h.held_batch ha).1
  · exact (h.stop_batch ha).1
  · simp [h.lock_iff.mpr ha] at hl

/-! ### The shapes of change that keep the invariant -/

/-- The queue memory, the encoder's cursor and the presented batch are the same in both states. -/
structure SameStore (s t : State) : Prop where
  qMem : t.qMem = s.qMem := by rfl
  encPhase : t.encPhase = s.encPhase := by rfl
  encIndex : t.encIndex = s.encIndex := by rfl
  encBit : t.encBit = s.encBit := by rfl
  encDone : t.encDone = s.encDone := by rfl
  batchSrc : t.batchSrc = s.batchSrc := by rfl
  batchN : t.batchN = s.batchN := by rfl
  txBuf0 : t.txBuf0 = s.txBuf0 := by rfl
  txBuf1 : t.txBuf1 = s.txBuf1 := by rfl

theorem SameStore.readBatch_eq {s t : State} (e : SameStore s t) (i : Nat) : readBatch t i = readBatch s i :=
  readBatch_congr e.batchN e.batchSrc e.txBuf0 e.txBuf1 e.qMem i

/-- With the store the same, the invariant is kept when the lock still agrees with `arb_state`, the queue did not grow, a
transmission that is outstanding was so before, and nothing waits to be played outside one. -/
theorem blockInv_of_sameStore {s t : State} (h : BlockInv s) (e : SameStore s t)
    (hlock : t.qLock = true ↔ t.arbState = .txFlush) (hcount : t.qCount ≤ s.qCount)
    (hsame : outstanding t = true → t.arbState = s.arbState ∧ t.qCount = s.qCount)
    (hpend : outstanding t = false → t.txPending = []) : BlockInv t where
  memory_wf := by rw [e.qMem]; exact h.memory_wf
  count_le := hcount.trans h.count_le
  entries_written i hi := by rw [e.qMem]; exact h.entries_written i (hi.trans_le hcount)
  lock_iff := hlock
  cursor_legal := by simpa only [CursorLegal, e.encPhase, e.encBit] using h.cursor_legal
  index_lt := by rw [e.encIndex]; exact h.index_lt
  done_at_start := by simpa only [e.encDone, e.encPhase, e.encIndex] using h.done_at_start
  batch_le := by rw [e.batchN]; exact h.batch_le
  batch_readable i hi := by rw [e.readBatch_eq]; exact h.batch_readable i (e.batchN ▸ hi)
  index_in_batch ho hd := by
    rw [e.encIndex, e.batchN]
    exact h.index_in_batch (outstanding_congr (hsame ho).1 ▸ ho) (e.encDone ▸ hd)
  held_batch ha := by
    rw [e.batchSrc, e.batchN]
    exact h.held_batch ((hsame (by simp [outstanding_iff, ha])).1 ▸ ha)
  stop_batch ha := by
    rw [e.batchSrc, e.batchN]
    exact h.stop_batch ((hsame (by simp [outstanding_iff, ha])).1 ▸ ha)
  flush_batch ha := by
    obtain ⟨harb, hq⟩ := hsame (by simp [outstanding_iff, ha])
    rw [e.batchSrc, e.batchN, hq]
    exact h.flush_batch (harb ▸ ha)
  batch_conforming ho i p hp := by
    rw [e.readBatch_eq] at hp
    exact h.batch_conforming (outstanding_congr (hsame ho).1 ▸ ho) i p hp
  pending_empty := hpend

/-- The store, the queue's count and lock, and `arb_state` are the same in both states. -/
structure SameBlock (s t : State) : Prop extends SameStore s t where
  qCount : t.qCount = s.qCount := by rfl
  qLock : t.qLock = s.qLock := by rfl
  arbState : t.arbState = s.arbState := by rfl

theorem blockInv_of_sameBlock {s t : State} (h : BlockInv s) (e : SameBlock s t)
    (hpend : outstanding t = false → t.txPending = []) : BlockInv t :=
  blockInv_of_sameStore h e.toSameStore (by rw [e.qLock, e.arbState]; exact h.lock_iff) e.qCount.le
    (fun _ => ⟨e.arbState, e.qCount⟩) hpend

/-- The arbiter goes to, or stays in, a state without a transmission: the queue is unlocked and nothing waits to be played. -/
theorem blockInv_of_idle {s t : State} (h : BlockInv s) (e : SameStore s t) (ha : t.arbState = .cycle ∨ t.arbState = .wait)
    (hlock : t.qLock = false) (hcount : t.qCount ≤ s.qCount) (hpend : t.txPending = []) : BlockInv t := by
  have hidle : outstanding t = false := by rcases ha with ha | ha <;> simp [outstanding, ha]
  refine blockInv_of_sameStore h e ?_ hcount (fun ho => ?_) fun _ => hpend
  · rcases ha with ha | ha <;> simp [hlock, ha]
  · simp [hidle] at ho

/-- Only the encoder's fields are written, and the new cursor is legal for the batch (41_pulse_encoder.md R114). -/
theorem blockInv_of_cursor {s t : State} (h : BlockInv s) (hw : EncoderWrote s t) (hlegal : CursorLegal t)
    (hlt : t.encIndex < 128) (hdone : t.encDone = true → t.encPhase = .start ∧ t.encIndex = 0)
    (hin : outstanding s = true → t.encDone = false → t.encIndex < s.batchN) : BlockInv t := by
  obtain ⟨ph, i, b, n, d, rfl⟩ := hw
  exact { h with cursor_legal := hlegal, index_lt := hlt, done_at_start := hdone, index_in_batch := hin }

/-- The batch that each of the three begins presents (44_arbiter.md R184, R186, R190). -/
def PresentsBatch (t : State) : Prop :=
  (t.arbState = .txHeld ∧ t.qLock = false ∧ t.batchSrc = .buf ∧ t.batchN = 1) ∨
  (t.arbState = .txStop ∧ t.qLock = false ∧ t.batchSrc = .buf ∧ t.batchN = 2) ∨
  (t.arbState = .txFlush ∧ t.qLock = true ∧ t.batchSrc = .queue ∧ t.batchN = t.qCount ∧ 0 < t.qCount)

/-- A transmission has just begun: the cursor is at Start/0 and every packet presented is conforming. -/
theorem blockInv_of_begun {t : State} (hwf : t.qMem.wf) (hcount : t.qCount ≤ 128)
    (hentries : ∀ i, i < t.qCount → ∃ p, readEntry t.qMem i = .ok p) (hstart : AtStart t) (hdone : t.encDone = false)
    (hpres : PresentsBatch t) (hbatch : ∀ i, i < t.batchN → ∃ p, readBatch t i = .ok p ∧ conforming p = true) :
    BlockInv t := by
  obtain ⟨hphase, hindex, hbit⟩ := hstart
  refine
    { memory_wf := hwf
      count_le := hcount
      entries_written := hentries
      lock_iff := ?_
      cursor_legal := by simp [CursorLegal, hbit]
      index_lt := by omega
      done_at_start := fun hd => by simp [hdone] at hd
      batch_le := ?_
      batch_readable := fun i hi => (hbatch i hi).imp fun _ => And.left
      index_in_batch := fun _ _ => ?_
      held_batch := ?_
      stop_batch := ?_
      flush_batch := ?_
      batch_conforming := fun _ i p hp => ?conforming
      pending_empty := ?_ }
  case conforming =>
    obtain ⟨q, hq, hc⟩ := hbatch i (readBatch_lt hp)
    cases hq.symm.trans hp
    exact hc
  all_goals
    rcases hpres with ⟨ha, hl, hs, hn⟩ | ⟨ha, hl, hs, hn⟩ | ⟨ha, hl, hs, hn, hq⟩ <;> simp [*, outstanding]

/-! ### DRIVE keeps the invariant -/

theorem beat_keeps_blockInv {s t : State} {sym : Symbol} {last : Bool} (h : BlockInv s) (hd : s.encDone = false)
    (hb : beat s = .ok (sym, last, t)) : BlockInv t := by
  have hw := beat_wrote hb
  have hle := h.batch_le
  obtain ⟨hbit, hzero⟩ := h.cursor_legal
  obtain ⟨p, hp, hcase⟩ := beat_cases hb
  have hin := readBatch_lt hp
  rcases hcase with ⟨-, -, -, rfl⟩ | ⟨-, -, -, -, rfl⟩ | ⟨-, hne, -, -, rfl⟩ | ⟨hph, -, -, -, rfl⟩ | ⟨hph, hne, -, -, rfl⟩
  · exact blockInv_of_cursor h hw (by simp [CursorLegal]) h.index_lt (by simp [hd]) fun _ _ => hin
  · exact blockInv_of_cursor h hw (by simp [CursorLegal]) h.index_lt (by simp [hd]) fun _ _ => hin
  · exact blockInv_of_cursor h hw (by simp [CursorLegal]; omega) h.index_lt (by simp [hd]) fun _ _ => hin
  · exact blockInv_of_cursor h hw (by simp [CursorLegal, hzero, hph]) (by simp) (by simp) (by simp)
  · exact blockInv_of_cursor h hw (by simp [CursorLegal, hzero, hph]) (by simp; omega) (by simp [hd])
      fun _ _ => by simp; omega

theorem driveCall_keeps_blockInv {cap : Nat} {s t : State} (h : BlockInv s) (hc : driveCall cap s = .next t) :
    BlockInv t := by
  obtain ⟨ho, hd, -, out, last, s', hl, rfl⟩ := driveCall_cases hc
  obtain ⟨hinv, -⟩ := driveLoop_keeps_until_done (fun _ _ _ _ hi hd hb => beat_keeps_blockInv hi hd hb) hl hd h
  have hout : outstanding s' = true := by
    obtain ⟨_, _, _, _, _, rfl⟩ := driveLoop_wrote hl
    exact ho
  refine blockInv_of_sameBlock hinv {} fun hidle => ?_
  simp [outstanding_congr (s := s') (t := (s'.handOver out).returns _) rfl, hout] at hidle

theorem encReset_keeps_blockInv {s : State} (h : BlockInv s) (hb : beginsTransmission s = true) :
    BlockInv s.encReset :=
  blockInv_of_cursor h ⟨_, _, _, _, _, rfl⟩ (by simp [CursorLegal]) (by simp) (by simp)
    fun ho => by simp [outstanding_of_begins hb] at ho

/-! ### A transmission's symbols and its end keep the invariant -/

theorem playSymbol_keeps_blockInv {y : Symbol} {s t : State} (h : BlockInv s) (hp : playSymbol y s = .next t) :
    BlockInv t := by
  obtain ⟨rest, hpend, rfl⟩ := playSymbol_cases hp
  refine blockInv_of_sameBlock h {} fun hidle => ?_
  simp [h.pending_empty hidle] at hpend

theorem heldEnd_keeps_blockInv {r : Token} {s t : State} (h : BlockInv s) (he : heldEnd r s = .next t) : BlockInv t := by
  obtain ⟨ha, -, rfl⟩ := heldEnd_cases he
  have hl : s.qLock = false := unlocked_of_blockInv h ha
  obtain ⟨l, hsettle⟩ := settleLine_eq s r
  rw [hsettle]
  exact blockInv_of_idle h {} (.inl rfl) hl le_rfl rfl

theorem stopEnd_keeps_blockInv {r : Token} {s t : State} (h : BlockInv s) (he : stopEnd r s = .next t) : BlockInv t := by
  obtain ⟨ha, -, rfl⟩ := stopEnd_cases he
  have hl : s.qLock = false := unlocked_of_blockInv h ha
  obtain ⟨l, hsettle⟩ := settleLine_eq s r
  rw [hsettle]
  exact blockInv_of_idle h {} (.inl rfl) hl le_rfl rfl

theorem flushEnd_keeps_blockInv {r : Token} {s t : State} (h : BlockInv s) (he : flushEnd r s = .next t) :
    BlockInv t := by
  obtain ⟨-, -, rfl⟩ := flushEnd_cases he
  obtain ⟨l, hsettle⟩ := settleLine_eq s r
  rw [hsettle]
  exact blockInv_of_idle h {} (.inl rfl) rfl (Nat.zero_le _) rfl

/-! ### The arbiter's steps keep the invariant -/

theorem heldBegin_keeps_blockInv {s : State} (k : Key) (c : Channel) (h : BlockInv s) (ha : s.arbState = .cycle) :
    BlockInv (heldBegin k c s) := by
  have hl : s.qLock = false := unlocked_of_blockInv h ha
  refine blockInv_of_begun h.memory_wf h.count_le h.entries_written ⟨rfl, rfl, rfl⟩ rfl
    (.inl ⟨rfl, hl, rfl, rfl⟩) fun i hi => ?_
  obtain rfl : i = 0 := Nat.lt_one_iff.mp hi
  exact ⟨_, readBatch_buf_zero rfl hi, conforming_encodePacket k c⟩

theorem stopBegin_keeps_blockInv {s : State} (c : Channel) (h : BlockInv s) (ha : s.arbState = .cycle) :
    BlockInv (stopBegin c s) := by
  have hl : s.qLock = false := unlocked_of_blockInv h ha
  refine blockInv_of_begun h.memory_wf h.count_le h.entries_written ⟨rfl, rfl, rfl⟩ rfl
    (.inr (.inl ⟨rfl, hl, rfl, rfl⟩)) fun i hi => ?_
  match i, hi with
  | 0, hi => exact ⟨_, readBatch_buf_zero rfl hi, conforming_encodePacket 0 c⟩
  | 1, hi => exact ⟨_, readBatch_buf_one rfl hi, conforming_encodePacket 0 c⟩

theorem cycleStep_keeps_blockInv {s t : State} (h : BlockInv s) (hc : cycleStep s = .next t) : BlockInv t := by
  obtain ⟨ha, hcase⟩ := cycleStep_cases hc
  have hl : s.qLock = false := unlocked_of_blockInv h ha
  rcases hcase with ⟨-, rfl⟩ | ⟨-, -, rfl⟩ | ⟨-, -, rfl⟩
  · exact heldBegin_keeps_blockInv _ _ h ha
  · exact blockInv_of_idle h {} (.inr rfl) hl le_rfl (h.pending_empty (by simp [outstanding, ha]))
  · exact stopBegin_keeps_blockInv _ h ha

theorem flushBegin_keeps_blockInv {s t : State} (h : BlockInv s) (ha : s.arbState = .wait)
    (hf : flushBegin s = .next t) : BlockInv t := by
  have hl : s.qLock = false := unlocked_of_blockInv h ha
  rcases flushBegin_cases hf with ⟨-, rfl⟩ | ⟨hq, m, hm, rfl⟩
  · exact blockInv_of_idle h {} (.inl rfl) hl le_rfl (h.pending_empty (by simp [outstanding, ha]))
  · obtain ⟨hentry, -, hwf⟩ := rebuildEntries_cases hm
    have hread : ∀ i, i < s.qCount → ∃ p, readEntry m i = .ok p ∧ conforming p = true := fun i hi => by
      obtain ⟨p, -, hp⟩ := hentry i (Nat.zero_le i) (by omega)
      exact ⟨_, hp, conforming_encodePacket _ _⟩
    refine blockInv_of_begun (hwf h.memory_wf) h.count_le (fun i hi => (hread i hi).imp fun _ => And.left)
      ⟨rfl, rfl, rfl⟩ rfl (.inr (.inr ⟨rfl, rfl, rfl, rfl, Nat.pos_of_ne_zero hq⟩)) fun i hi => ?_
    rw [readBatch_queue rfl hi]
    exact hread i hi

theorem waitStep_keeps_blockInv {s t : State} (h : BlockInv s) (hw : waitStep s = .next t) : BlockInv t := by
  have hclear : BlockInv s.clearWakes := blockInv_of_sameBlock h {} h.pending_empty
  obtain ⟨ha, hcase⟩ := waitStep_cases hw
  have hl : s.qLock = false := unlocked_of_blockInv h ha
  rcases hcase with ⟨-, hf⟩ | ⟨-, -, rfl⟩ | ⟨-, -, rfl⟩
  · exact flushBegin_keeps_blockInv hclear ha hf
  · exact blockInv_of_idle hclear {} (.inl rfl) hl le_rfl (h.pending_empty (by simp [outstanding, ha]))
  · exact h

/-! ### The command port keeps the invariant -/

/-- Entries stored behind the valid ones of an unlocked queue: they read back, what they overwrite stays readable, and a batch
in flight is not in the queue (43_commands.md R162, R160). -/
theorem blockInv_of_stored {s : State} {m : Memory} {ps : List Packet} (h : BlockInv s) (hl : s.qLock = false)
    (hm : writeEntries s.qMem s.qCount ps = .ok m) (hroom : s.qCount + ps.length ≤ 128) :
    BlockInv (s.setQueue m (s.qCount + ps.length)) := by
  obtain ⟨hread, -, hwf⟩ := writeEntries_cases hm
  refine { h with
    memory_wf := hwf h.memory_wf
    count_le := hroom
    entries_written := fun i hi => ?entries
    batch_readable := fun i hi => ?readable
    flush_batch := fun ha => absurd (h.lock_iff.mpr ha) (by simp [hl])
    batch_conforming := fun ho i p hp => ?conforming }
  case entries =>
    by_cases hold : i < s.qCount
    · exact readable_writeEntries hm (h.entries_written i hold)
    · have hi : i < s.qCount + ps.length := hi
      have hnew := hread (i - s.qCount) (by omega)
      rw [Nat.add_sub_cancel' (by omega)] at hnew
      exact ⟨_, hnew⟩
  case readable =>
    have hold := h.batch_readable i hi
    cases hs : s.batchSrc with
    | buf => rwa [readBatch_setQueue_buf m _ hs]
    | queue =>
      rw [readBatch_queue hs hi] at hold
      rw [readBatch_queue (s := s.setQueue m (s.qCount + ps.length)) hs hi]
      exact readable_writeEntries hm hold
  case conforming =>
    rw [readBatch_setQueue_buf m _ (batchSrc_buf_of_unlocked h hl ho)] at hp
    exact h.batch_conforming ho i p hp

theorem appendCommand_keeps_blockInv {payload : List Byte} {s t : State} (h : BlockInv s) (hl : s.qLock = false)
    (hc : appendCommand payload s = .next t) : BlockInv t := by
  obtain ⟨m, hm, rfl⟩ := appendCommand_cases hc
  have hcount := h.count_le
  have hfit : ((payloadUnits payload).take (128 - s.qCount)).length ≤ 128 - s.qCount := List.length_take_le _ _
  exact blockInv_of_sameBlock (blockInv_of_stored h hl hm (by omega)) {} h.pending_empty

theorem acceptCommand_keeps_blockInv {c : Command} {s t : State} (h : BlockInv s) (ha : acceptable c s = true)
    (hc : acceptCommand c s = .next t) : BlockInv t := by
  rcases acceptCommand_cases hc with ⟨payload, rfl, hc⟩ | ⟨-, rfl⟩ | ⟨b, -, rfl⟩ | ⟨b, -, rfl⟩
  · exact appendCommand_keeps_blockInv h (acceptable_append ha) hc
  · rcases flushCommand_cases s with ⟨-, hf⟩ | ⟨-, hf⟩
    · rw [hf]; exact blockInv_of_sameBlock h {} h.pending_empty
    · rw [hf]; exact blockInv_of_sameBlock h {} h.pending_empty
  · exact blockInv_of_sameBlock h {} h.pending_empty
  · exact blockInv_of_sameBlock h {} h.pending_empty

theorem issueCommand_keeps_blockInv {c : Command} {s t : State} (h : BlockInv s) (hc : issueCommand c s = .next t) :
    BlockInv t := by
  rcases issueCommand_cases hc with ⟨-, ha, hc⟩ | ⟨-, rfl⟩
  · exact acceptCommand_keeps_blockInv h ha hc
  · exact blockInv_of_sameBlock h {} h.pending_empty

/-! ### Every step keeps the invariant, and reset meets it -/

theorem moved_keeps_blockInv {s t : State} (h : BlockInv s) (hm : Moved s t) : BlockInv t := by
  cases hm with
  | returned v ht => subst ht; exact blockInv_of_sameBlock h {} h.pending_empty
  | delivered frames events ht => subst ht; exact blockInv_of_sameBlock h {} h.pending_empty
  | raised d ht => subst ht; exact blockInv_of_sameBlock h {} h.pending_empty
  | encoderReset hb ht => subst ht; exact encReset_keeps_blockInv h hb
  | played y hp => exact playSymbol_keeps_blockInv h hp
  | drove cap hc => exact driveCall_keeps_blockInv h hc
  | issued c hc => exact issueCommand_keeps_blockInv h hc
  | heldEnded r he => exact heldEnd_keeps_blockInv h he
  | stopEnded r he => exact stopEnd_keeps_blockInv h he
  | flushEnded r he => exact flushEnd_keeps_blockInv h he
  | cycled hc => exact cycleStep_keeps_blockInv h hc
  | waited hw => exact waitStep_keeps_blockInv h hw

/-- Settles O11: a step takes an event from the inbox and then is a move, the acceptance of a waiting command, or nothing;
each of these keeps the invariant. -/
theorem everyStepKeepsInvariant : Obligations.EveryStepKeepsInvariant := by
  intro s t h hstep
  obtain ⟨l, -, hmove⟩ := step_moved hstep
  have hinbox : BlockInv (s.setInbox l) := blockInv_of_sameBlock h {} h.pending_empty
  rcases hmove with hm | rfl | ⟨c, rest, -, ha, hc⟩
  · exact moved_keeps_blockInv hinbox hm
  · exact hinbox
  · have hport : BlockInv ((s.setInbox l).setPort rest) := blockInv_of_sameBlock hinbox {} hinbox.pending_empty
    have hacc : acceptable c ((s.setInbox l).setPort rest) = true := by cases c <;> exact ha
    exact acceptCommand_keeps_blockInv hport hacc hc

/-- Settles O10: reset has no valid entry, an empty batch, the cursor at Start/0 and no transmission. -/
theorem invariantHoldsAtReset : Obligations.InvariantHoldsAtReset where
  memory_wf := ⟨.nil, by simp [State.reset]⟩
  count_le := by decide
  entries_written i hi := absurd hi (Nat.not_lt_zero i)
  lock_iff := by decide
  cursor_legal := ⟨by decide, by decide⟩
  index_lt := by decide
  done_at_start := by decide
  batch_le := by decide
  batch_readable i hi := absurd hi (Nat.not_lt_zero i)
  index_in_batch := by decide
  held_batch := by decide
  stop_batch := by decide
  flush_batch := by decide
  batch_conforming ho := absurd ho (by decide)
  pending_empty _ := rfl

/-- Settles O9: the reset state is written out field by field, and each field has the value of R28's table. -/
theorem resetStateValues : Obligations.ResetStateValues :=
  ⟨rfl, rfl, rfl, rfl, rfl, rfl, rfl, rfl, rfl, rfl, rfl, rfl, rfl, rfl, rfl⟩

end Sys2Proof.Proofs.BlockState
end

section
/-! PROOFS. The family 10_state.md, part two: which operation may write which element (R27). `Writes` lists the rights; each
shared operation of Machine/Ops.lean names only the elements it writes, and `exec_writes` collects them. The write rights, the
writers of the queue memory and the stickiness of the wake causes are read off it. The BATCHSRC rows close the part. -/

namespace Sys2Proof.Proofs.BlockState

open Sys2Proof Sys2Proof.Machine Sys2Proof.Safety

/-! ### The rights -/

/-- ARB_WAIT left WAIT and consumed both wake causes (44_arbiter.md R188). -/
def ConsumedWakes (s t : State) : Prop :=
  s.arbState = .wait ∧ t.arbState ≠ .wait ∧ t.wakeContinue = false ∧ t.wakeFlush = false

/-- An operation whose DRIVE call can emit the last End of a batch: every one but the beats of Start and Word (R117). -/
def MayCompleteBatch (i : Instr) : Prop :=
  (∃ cap, i = .drive cap ∨ i = .transmit (.drive cap)) ∨ i = .encPhaseEnd

/-- What the operation `i`, answered from `s` with `t`, may have written (10_state.md R27). An element an operation leaves as it
is needs no entry. -/
structure Writes (i : Instr) (s t : State) : Prop where
  heldKey : t.heldKey = s.heldKey ∨ ∃ b, i = .heldKey [b] := by exact .inl rfl
  channel : t.channel = s.channel ∨ ∃ b, i = .setChan [b] := by exact .inl rfl
  stopSent : t.stopSent = s.stopSent ∨ (s.arbState = .txHeld ∧ t.arbState = .cycle ∧ t.stopSent = false) ∨
    (s.arbState = .txStop ∧ t.arbState = .cycle ∧ t.stopSent = true) := by exact .inl rfl
  encTotal : t.encTotal = s.encTotal ∨ (outstanding s = true ∧ t.encDone = true ∧ MayCompleteBatch i) := by exact .inl rfl
  cursor : (t.encPhase = s.encPhase ∧ t.encIndex = s.encIndex ∧ t.encBit = s.encBit ∧ t.encDone = s.encDone) ∨
    (outstanding s = true ∧ CallsDrive i) ∨ i = .encReset ∨ i = .transmit .start ∨
    (outstanding s = false ∧ outstanding t = true) := by exact .inl ⟨rfl, rfl, rfl, rfl⟩
  batch : (t.batchSrc = s.batchSrc ∧ t.batchN = s.batchN ∧ t.txBuf0 = s.txBuf0 ∧ t.txBuf1 = s.txBuf1) ∨
    (outstanding s = false ∧ outstanding t = true) := by exact .inl ⟨rfl, rfl, rfl, rfl⟩
  qMem : t.qMem = s.qMem ∨ (∃ payload, i = .append payload ∧ s.qLock = false ∧ s.port = []) ∨
    (s.arbState = .wait ∧ s.wakeFlush = true ∧ t.arbState = .txFlush) := by exact .inl rfl
  qCount : t.qCount = s.qCount ∨ (∃ payload, i = .append payload) ∨
    (s.arbState = .txFlush ∧ t.arbState = .cycle ∧ t.qCount = 0) := by exact .inl rfl
  qLock : t.qLock = s.qLock ∨ (s.arbState = .wait ∧ t.arbState = .txFlush ∧ t.qLock = true) ∨
    (s.arbState = .txFlush ∧ t.arbState = .cycle ∧ t.qLock = false) := by exact .inl rfl
  wakeContinue : t.wakeContinue = s.wakeContinue ∨ (t.wakeContinue = true ∧ ∃ b, i = .heldKey [b]) ∨
    ConsumedWakes s t := by exact .inl rfl
  wakeFlush : t.wakeFlush = s.wakeFlush ∨
    (t.wakeFlush = true ∧ ∃ payload, i = .append payload ∨ i = .flush payload) ∨ ConsumedWakes s t := by exact .inl rfl

section
variable {i : Instr} {s t : State}

/-! ### Operations that write no element -/

theorem writes_returned {v : Value} (h : (.next (s.returns v) : StepResult) = .next t) : Writes i s t := by
  injection h with h
  subst h
  exact {}

theorem writes_readPresented {src : BatchSrc} (h : readPresented src s = .next t) : Writes i s t := by
  obtain ⟨-, -, -, -, p, -, rfl⟩ := readPresented_cases h
  exact {}

theorem writes_frameSeq {batch : List Packet} (h : execFrameSeq batch s = .next t) : Writes i s t := by
  unfold execFrameSeq at h
  split at h
  · cases h
  · exact writes_returned h

theorem writes_raised {d : Diag} (h : (.next (s.raiseDiag d) : StepResult) = .next t) : Writes i s t := by
  injection h with h
  subst h
  exact {}

theorem writes_delivered {frames : List Frame} {events : List Diag}
    (h : (.next (s.deliver frames events) : StepResult) = .next t) : Writes i s t := by
  injection h with h
  subst h
  exact {}

theorem writes_playSymbol {y : Symbol} (h : playSymbol y s = .next t) : Writes i s t := by
  obtain ⟨rest, -, rfl⟩ := playSymbol_cases h
  exact {}

/-! ### The encoder -/

/-- A beat grows `enc_total` only when it emits the last End (41_pulse_encoder.md R117). -/
theorem beat_encTotal {sym : Symbol} {last : Bool} (h : beat s = .ok (sym, last, t)) :
    t.encTotal = s.encTotal ∨ (s.encPhase = .fin ∧ t.encDone = true) := by
  obtain ⟨p, -, hcase⟩ := beat_cases h
  rcases hcase with ⟨-, -, -, rfl⟩ | ⟨-, -, -, -, rfl⟩ | ⟨-, -, -, -, rfl⟩ | ⟨hph, -, -, -, rfl⟩ | ⟨-, -, -, -, rfl⟩
  · exact .inl rfl
  · exact .inl rfl
  · exact .inl rfl
  · exact .inr ⟨hph, rfl⟩
  · exact .inl rfl

/-- DRIVE grows `enc_total` only in the call that completes the batch (R117). -/
theorem driveCall_encTotal {cap : Nat} (h : driveCall cap s = .next t) :
    t.encTotal = s.encTotal ∨ t.encDone = true := by
  obtain ⟨-, hd, -, out, last, s', hl, rfl⟩ := driveCall_cases h
  refine (driveLoop_keeps_until_done (P := fun u => u.encTotal = s.encTotal ∨ u.encDone = true)
    (fun u sym l u' hu hud hb => ?_) hl hd (.inl rfl)).1
  rcases hu with hu | hu
  · exact (beat_encTotal hb).imp (·.trans hu) And.right
  · simp [hud] at hu

/-- DRIVE(1) is one beat (R120). -/
theorem driveLoop_one {out : List Symbol} {last : Bool} (h : driveLoop 1 s = .ok (out, last, t)) :
    ∃ sym, beat s = .ok (sym, last, t) := by
  rcases driveLoop_cases h with ⟨hc, -⟩ | ⟨c, sym, -, hb, -, rfl⟩ | ⟨c, sym, s1, rest, hc, hb, hl, -⟩
  · simp at hc
  · exact ⟨sym, hb⟩
  · obtain rfl : c = 0 := by omega
    rcases driveLoop_cases hl with ⟨-, -, rfl, rfl⟩ | ⟨_, _, hc, -⟩ | ⟨_, _, _, _, hc, -⟩
    · exact ⟨sym, hb⟩
    · simp at hc
    · simp at hc

/-- A beat outside the End phase leaves `enc_total` (R117). -/
theorem driveBeat_encTotal {ph : EncPhase} (h : driveBeat ph s = .next t) (hne : ph ≠ .fin) :
    t.encTotal = s.encTotal := by
  obtain ⟨rfl, hc⟩ := driveBeat_cases h
  obtain ⟨-, -, -, out, last, s', hl, rfl⟩ := driveCall_cases hc
  obtain ⟨sym, hb⟩ := driveLoop_one hl
  exact (beat_encTotal hb).resolve_right fun hfin => hne hfin.1

theorem writes_driveCall {cap : Nat} (hi : CallsDrive i) (h : driveCall cap s = .next t)
    (htotal : MayCompleteBatch i ∨ t.encTotal = s.encTotal) : Writes i s t := by
  have hdone := driveCall_encTotal h
  obtain ⟨ho, -, -, out, last, s', hl, rfl⟩ := driveCall_cases h
  obtain ⟨ph, n, b, total, d, rfl⟩ := driveLoop_wrote hl
  refine { encTotal := ?_, cursor := .inr (.inl ⟨ho, hi⟩) }
  rcases htotal with hcomplete | heq
  · exact hdone.imp_right fun hd => ⟨ho, hd, hcomplete⟩
  · exact .inl heq

theorem writes_requestReset (hi : i = .encReset ∨ i = .transmit .start) (h : requestReset s = .next t) :
    Writes i s t := by
  obtain ⟨-, rfl⟩ := requestReset_cases h
  exact { cursor := .inr (.inr (hi.imp_right .inl)) }

/-! ### The ends of a transmission -/

theorem writes_heldEnd {r : Token} (h : heldEnd r s = .next t) : Writes i s t := by
  obtain ⟨ha, -, rfl⟩ := heldEnd_cases h
  obtain ⟨l, hsettle⟩ := settleLine_eq s r
  rw [hsettle]
  exact { stopSent := .inr (.inl ⟨ha, rfl, rfl⟩) }

theorem writes_stopEnd {r : Token} (h : stopEnd r s = .next t) : Writes i s t := by
  obtain ⟨ha, -, rfl⟩ := stopEnd_cases h
  obtain ⟨l, hsettle⟩ := settleLine_eq s r
  rw [hsettle]
  exact { stopSent := .inr (.inr ⟨ha, rfl, rfl⟩) }

theorem writes_flushEnd {r : Token} (h : flushEnd r s = .next t) : Writes i s t := by
  obtain ⟨ha, -, rfl⟩ := flushEnd_cases h
  obtain ⟨l, hsettle⟩ := settleLine_eq s r
  rw [hsettle]
  exact { qCount := .inr (.inr ⟨ha, rfl, rfl⟩), qLock := .inr (.inr ⟨ha, rfl, rfl⟩) }

theorem writes_endTransmission {r : Token} (h : endTransmission r s = .next t) : Writes i s t := by
  rcases endTransmission_cases h with h | h | h
  · exact writes_heldEnd h
  · exact writes_stopEnd h
  · exact writes_flushEnd h

/-! ### The arbiter's steps -/

theorem writes_cycleStep (h : cycleStep s = .next t) : Writes i s t := by
  obtain ⟨ha, hcase⟩ := cycleStep_cases h
  have hidle : outstanding s = false := by simp [outstanding, ha]
  rcases hcase with ⟨-, rfl⟩ | ⟨-, -, rfl⟩ | ⟨-, -, rfl⟩
  · exact { cursor := .inr (.inr (.inr (.inr ⟨hidle, rfl⟩))), batch := .inr ⟨hidle, rfl⟩ }
  · exact {}
  · exact { cursor := .inr (.inr (.inr (.inr ⟨hidle, rfl⟩))), batch := .inr ⟨hidle, rfl⟩ }

theorem writes_waitStep (h : waitStep s = .next t) : Writes i s t := by
  obtain ⟨ha, hcase⟩ := waitStep_cases h
  have hidle : outstanding s = false := by simp [outstanding, ha]
  rcases hcase with ⟨hf, h⟩ | ⟨-, -, rfl⟩ | ⟨-, -, rfl⟩
  · rcases flushBegin_cases h with ⟨-, rfl⟩ | ⟨-, m, -, rfl⟩
    · exact
        { wakeContinue := .inr (.inr ⟨ha, by simp, rfl, rfl⟩)
          wakeFlush := .inr (.inr ⟨ha, by simp, rfl, rfl⟩) }
    · exact
        { cursor := .inr (.inr (.inr (.inr ⟨hidle, rfl⟩)))
          batch := .inr ⟨hidle, rfl⟩
          qMem := .inr (.inr ⟨ha, hf, rfl⟩)
          qLock := .inr (.inl ⟨ha, rfl, rfl⟩)
          wakeContinue := .inr (.inr ⟨ha, by simp, rfl, rfl⟩)
          wakeFlush := .inr (.inr ⟨ha, by simp, rfl, rfl⟩) }
  · exact
      { wakeContinue := .inr (.inr ⟨ha, by simp, rfl, rfl⟩)
        wakeFlush := .inr (.inr ⟨ha, by simp, rfl, rfl⟩) }
  · exact {}

/-! ### The command port -/

/-- `i` is an operation that issues the command `c` (30_encoding.md R69; FLUSH ignores its payload, 43_commands.md R165). -/
def Issues (i : Instr) : Command → Prop
  | .append payload => i = .append payload
  | .flush => ∃ payload, i = .flush payload
  | .heldKey b => i = .heldKey [b]
  | .setChan b => i = .setChan [b]

theorem writes_acceptCommand {c : Command} (hi : Issues i c) (hp : s.port = []) (ha : acceptable c s = true)
    (h : acceptCommand c s = .next t) : Writes i s t := by
  rcases acceptCommand_cases h with ⟨payload, rfl, h⟩ | ⟨rfl, rfl⟩ | ⟨b, rfl, rfl⟩ | ⟨b, rfl, rfl⟩
  · obtain ⟨m, -, rfl⟩ := appendCommand_cases h
    have hflag : ∀ before raised : Bool, (before || raised) = before ∨ (before || raised) = true := by decide
    exact
      { qMem := .inr (.inl ⟨payload, hi, acceptable_append ha, hp⟩)
        qCount := .inr (.inl ⟨payload, hi⟩)
        wakeFlush := (hflag _ _).imp_right fun hset => .inl ⟨hset, payload, .inl hi⟩ }
  · obtain ⟨payload, hi⟩ := hi
    rcases flushCommand_cases s with ⟨-, hf⟩ | ⟨-, hf⟩
    · rw [hf]
      exact { wakeFlush := .inr (.inl ⟨rfl, payload, .inr hi⟩) }
    · rw [hf]
      exact {}
  · exact { heldKey := .inr ⟨b, hi⟩, wakeContinue := .inr (.inl ⟨rfl, b, hi⟩) }
  · exact { channel := .inr ⟨b, hi⟩ }

theorem writes_issueCommand {c : Command} (hi : Issues i c) (h : issueCommand c s = .next t) : Writes i s t := by
  rcases issueCommand_cases h with ⟨hp, ha, h⟩ | ⟨-, rfl⟩
  · exact writes_acceptCommand hi hp ha h
  · exact {}

end

/-! ### Every operation -/

/-- Every answered operation writes only the elements it has the right to. -/
theorem exec_writes {i : Instr} {s t : State} (h : exec i s = .next t) : Writes i s t := by
  cases i with
  | pktStop c x | pktLb c x | pktLf c x | pktLbLf c x | pktRf c x | pktLbRf c x | pktLfRf c x | pktLbLfRf c x
  | pktRb c x | pktLbRb c x | pktLfRb c x | pktLbLfRb c x | pktRfRb c x | pktLbRfRb c x | pktLfRfRb c x
  | pktLbLfRfRb c x => exact writes_returned h
  | symStart | symBit0 | symBit1 | symEnd => exact writes_playSymbol h
  | append payload => exact writes_issueCommand (c := .append payload) rfl h
  | flush payload => exact writes_issueCommand (c := .flush) ⟨payload, rfl⟩ h
  | heldKey payload =>
    match payload, h with
    | [b], h => exact writes_issueCommand (c := .heldKey b) rfl h
  | setChan payload =>
    match payload, h with
    | [b], h => exact writes_issueCommand (c := .setChan b) rfl h
  | outDone | outInvalidArg | outTimeout | outFail | outUnknownError => exact writes_endTransmission h
  | diagFlushEmpty | diagAppendOverflow n | diagInvalidFrame v => exact writes_raised h
  | wakeContinue => exact writes_waitStep (continueStart_eq_waitStep h)
  | wakeFlush => exact writes_waitStep (flushStart_eq_waitStep h)
  | arbStateCycle | arbCycle => exact writes_cycleStep h
  | arbStateWait | arbWait => exact writes_waitStep h
  | arbStateTxHeld r => exact writes_heldEnd h
  | arbStateTxStop r => exact writes_stopEnd h
  | arbStateTxFlush r => exact writes_flushEnd h
  | encPhaseStart | encPhaseWord =>
    exact writes_driveCall (.inr (by simp)) (driveBeat_cases h).2 (.inr (driveBeat_encTotal h (by decide)))
  | encPhaseEnd => exact writes_driveCall (.inr (by simp)) (driveBeat_cases h).2 (.inl (.inr rfl))
  | batchSrcBuf | batchSrcQueue => exact writes_readPresented h
  | checksum v | singleKey k | encode k c | validate p | wireBit p n | waveform l | isStart y | classify y =>
    exact writes_returned h
  | frameSeq batch => exact writes_frameSeq h
  | encReset => exact writes_requestReset (.inl rfl) h
  | drive cap => exact writes_driveCall (.inl ⟨cap, .inl rfl⟩) h (.inl (.inl ⟨cap, .inl rfl⟩))
  | decode capture => exact writes_delivered h
  | arbHeld part =>
    cases part with
    | start => exact writes_cycleStep (heldStart_eq_cycleStep h)
    | complete r => exact writes_heldEnd h
  | arbStop part =>
    cases part with
    | start => exact writes_cycleStep (stopStart_eq_cycleStep h)
    | complete r => exact writes_stopEnd h
  | arbFlush part =>
    cases part with
    | start => exact writes_waitStep (flushStart_eq_waitStep h)
    | complete r => exact writes_flushEnd h
  | transmit part =>
    cases part with
    | start =>
      simp only [exec, execTransmit] at h
      split at h
      · cases h
      · exact writes_requestReset (.inr rfl) h
    | drive cap => exact writes_driveCall (.inl ⟨cap, .inr rfl⟩) h (.inl (.inl ⟨cap, .inr rfl⟩))
    | finish r => exact writes_endTransmission h

/-- Settles O54: the rights of `exec_writes`; where a wake cause is consumed, that bit is cleared. -/
theorem writeRights : Obligations.WriteRights := by
  intro i s t h
  have w := exec_writes h
  refine ⟨w.heldKey, w.channel, w.stopSent, w.encTotal, w.cursor, w.batch, w.qCount, w.qLock,
    w.wakeContinue.imp_right (.imp_right ?_), w.wakeFlush.imp_right (.imp_right ?_)⟩
  · rintro ⟨hwait, hleft, hcontinue, -⟩
    exact ⟨hcontinue, hwait, hleft⟩
  · rintro ⟨hwait, hleft, -, hflush⟩
    exact ⟨hflush, hwait, hleft⟩

/-- Settles O55: the right to write `q_mem`. -/
theorem queueMemoryWriters : Obligations.QueueMemoryWriters :=
  fun _ _ _ h => (exec_writes h).qMem

/-- Settles O56: a wake bit keeps its value, is set, or is consumed together with the other. -/
theorem wakeCausesAreSticky : Obligations.WakeCausesAreSticky := by
  intro i s t h
  have w := exec_writes h
  refine ⟨fun hset => ?_, fun hset => ?_⟩
  · rcases w.wakeFlush with hsame | ⟨hraised, -⟩ | ⟨hwait, hleft, hcontinue, -⟩
    · exact .inl (hsame.trans hset)
    · exact .inl hraised
    · exact .inr ⟨hwait, hleft, hcontinue⟩
  · rcases w.wakeContinue with hsame | ⟨hraised, -⟩ | ⟨hwait, hleft, -, hflush⟩
    · exact .inl (hsame.trans hset)
    · exact .inl hraised
    · exact .inr ⟨hwait, hleft, hflush⟩

/-! ### The BATCHSRC rows -/

/-- Where DRIVE would read `batch[enc_index]` from `src`, the row reads it (10_state.md R22). -/
theorem readPresented_answers {src : BatchSrc} {s : State} {p : Packet} (ho : outstanding s = true)
    (hd : s.encDone = false) (hsrc : s.batchSrc = src) (hp : readBatch s s.encIndex = .ok p) :
    readPresented src s = .next (s.returns (.packet p)) := by
  unfold readPresented
  rw [if_pos ⟨ho, hd, hsrc, readBatch_lt hp⟩, hp]

/-- Everywhere else the row is refused. -/
theorem readPresented_refused {src : BatchSrc} {s : State}
    (h : outstanding s = false ∨ s.encDone = true ∨ s.batchN ≤ s.encIndex ∨ s.batchSrc ≠ src) :
    readPresented src s = .refused .notPresented := by
  unfold readPresented
  refine if_neg ?_
  rintro ⟨ho, hd, hsrc, hlt⟩
  rcases h with h | h | h | h
  · simp [ho] at h
  · simp [hd] at h
  · omega
  · exact h hsrc

/-- Settles O29: the first part and the last two clauses are refusals, the other three are reads of the presented packet. -/
theorem batchSourceReads : Obligations.BatchSourceReads := by
  refine ⟨fun s h => ?_, fun s ho hd hlt => ⟨fun hs hidx => ?_, fun hs hidx => ?_, fun p hs hp => ?_, fun hs => ?_,
    fun hs => ?_⟩⟩
  · have hrefused : ∀ src, readPresented src s = .refused .notPresented := fun src =>
      readPresented_refused (h.imp_right (·.imp_right .inl))
    exact ⟨hrefused .buf, hrefused .queue⟩
  · exact readPresented_answers ho hd hs (hidx ▸ readBatch_buf_zero hs (hidx ▸ hlt))
  · exact readPresented_answers ho hd hs (hidx ▸ readBatch_buf_one hs (hidx ▸ hlt))
  · exact readPresented_answers ho hd hs ((readBatch_queue hs hlt).trans hp)
  · exact readPresented_refused (.inr (.inr (.inr (by simp [hs]))))
  · exact readPresented_refused (.inr (.inr (.inr (by simp [hs]))))

end Sys2Proof.Proofs.BlockState
end

section
/-! PROOFS. The family 20_memory.md, part one: how a step runs, by its inbox and its port (R52, R53). A request runs the
operation it decodes to; with no event left the oldest waiting command is accepted, as the operation that issues it, or the
arbiter steps (43_commands.md R160). -/

namespace Sys2Proof.Proofs.QueueMemory

open Sys2Proof Sys2Proof.Machine Sys2Proof.Safety

/-! ### The step by its next event -/

theorem step_of_inbox_nil {s : State} (h : s.inbox = []) : step s = autonomous s := by
  simp [step, h]

theorem step_of_request {s : State} {r : Request} {rest : List Event} {i : Instr} (h : s.inbox = .request r :: rest)
    (hd : decode r = some i) : step s = exec i (s.setInbox rest) := by
  simp [step, h, hd]

/-- Settles O5: the model's step decodes the request and runs what it decodes to. -/
theorem stepRunsDecodedOperation : Obligations.StepRunsDecodedOperation :=
  fun _ _ _ _ h hd => step_of_request h hd

/-! ### A command and the port -/

@[simp] theorem acceptable_setInbox (c : Command) (s : State) (l : List Event) :
    acceptable c (s.setInbox l) = acceptable c s := by
  cases c <;> rfl

@[simp] theorem acceptable_setPort (c : Command) (s : State) (p : List Command) :
    acceptable c (s.setPort p) = acceptable c s := by
  cases c <;> rfl

/-- While the queue is locked only HELDKEY and SETCHAN are acceptable (43_commands.md R160). -/
theorem acceptable_locked_cases {c : Command} {s : State} (hl : s.qLock = true) (ha : acceptable c s = true) :
    (∃ b, c = .heldKey b) ∨ ∃ b, c = .setChan b := by
  cases c with
  | append payload => simp [acceptable_append ha] at hl
  | flush => simp [acceptable, hl] at ha
  | heldKey b => exact .inl ⟨b, rfl⟩
  | setChan b => exact .inr ⟨b, rfl⟩

/-- An APPEND or FLUSH is acceptable exactly while the queue is not locked (R160). -/
theorem acceptable_queueCommand {c : Command} (hc : c = .flush ∨ ∃ payload, c = .append payload) (s : State) :
    acceptable c s = !s.qLock := by
  rcases hc with rfl | ⟨payload, rfl⟩ <;> rfl

theorem appendCommand_setPort (payload : List Byte) (s : State) (p : List Command) :
    appendCommand payload (s.setPort p) = mapNext (·.setPort p) (appendCommand payload s) := by
  simp only [appendCommand, State.setPort_qMem, State.setPort_qCount]
  split
  · rfl
  · by_cases hdrop : Config.queueCapacity - s.qCount < (payloadUnits payload).length
    · simp only [mapNext, hdrop, if_true, State.raiseDiag_qCount, State.setQueue_qCount, apply_ite (State.setPort · p)]
      rfl
    · simp only [mapNext, hdrop, if_false, State.setQueue_qCount, apply_ite (State.setPort · p)]
      rfl

theorem flushCommand_setPort (s : State) (p : List Command) :
    flushCommand (s.setPort p) = (flushCommand s).setPort p :=
  (apply_ite (State.setPort · p) (s.qCount ≠ 0) s.raiseFlush (s.raiseDiag .flushEmpty)).symm

/-- The effect of a command does not depend on what waits at the port, and leaves it (R160). -/
theorem acceptCommand_setPort (c : Command) (s : State) (p : List Command) :
    acceptCommand c (s.setPort p) = mapNext (·.setPort p) (acceptCommand c s) := by
  cases c with
  | append payload => exact appendCommand_setPort payload s p
  | flush => exact congrArg Host.Outcome.next (flushCommand_setPort s p)
  | heldKey b => rfl
  | setChan b => rfl

/-- The row of a command issues it. -/
theorem exec_commandInstr (c : Command) (s : State) : exec (commandInstr c) s = issueCommand c s := by
  cases c <;> rfl

theorem issueCommand_accepted {c : Command} {s : State} (hp : s.port = []) (ha : acceptable c s = true) :
    issueCommand c s = acceptCommand c s := by
  simp [issueCommand, hp, ha]

/-- Accepting a command from the head of the port is issuing it with nothing in front, the commands behind it kept. -/
theorem acceptCommand_eq_exec {c : Command} {s : State} (ha : acceptable c s = true) (rest : List Command) :
    acceptCommand c (s.setPort rest) = mapNext (·.setPort rest) (exec (commandInstr c) (s.setPort [])) := by
  rw [exec_commandInstr, issueCommand_accepted rfl (by simpa using ha)]
  exact acceptCommand_setPort c (s.setPort []) rest

/-! ### The block's own move -/

theorem autonomous_of_acceptable {s : State} {c : Command} {rest : List Command} (hp : s.port = c :: rest)
    (ha : acceptable c s = true) :
    autonomous s = mapNext (·.setPort rest) (exec (commandInstr c) (s.setPort [])) := by
  simp [autonomous, hp, ha, ← acceptCommand_eq_exec]

theorem autonomous_of_blocked {s : State} {c : Command} {rest : List Command} (hp : s.port = c :: rest)
    (hblocked : acceptable c s = false) : autonomous s = arbiterStep s := by
  simp [autonomous, hp, hblocked]

/-- The step accepts the oldest waiting command, when it may and no event is left (R160). -/
theorem step_accepts {s : State} {c : Command} {rest : List Command} (hin : s.inbox = []) (hp : s.port = c :: rest)
    (ha : acceptable c s = true) : step s = mapNext (·.setPort rest) (exec (commandInstr c) (s.setPort [])) :=
  (step_of_inbox_nil hin).trans (autonomous_of_acceptable hp ha)

end Sys2Proof.Proofs.QueueMemory
end

section
/-! PROOFS. The family 20_memory.md, part two: a flush in progress (R55, R56). Every move made while the queue is locked keeps
the flush and its queue (`KeepsFlush`), but for the completion (`CompletesFlush`); with no event left the timer completes it. -/

namespace Sys2Proof.Proofs.QueueMemory

open Sys2Proof Sys2Proof.Machine Sys2Proof.Safety

/-- The queue, the batch presented from it and `arb_state` are the same in both states. -/
structure KeepsFlush (s t : State) : Prop where
  qMem : t.qMem = s.qMem := by rfl
  qCount : t.qCount = s.qCount := by rfl
  qLock : t.qLock = s.qLock := by rfl
  batchSrc : t.batchSrc = s.batchSrc := by rfl
  batchN : t.batchN = s.batchN := by rfl
  arbState : t.arbState = s.arbState := by rfl

theorem KeepsFlush.trans {s u t : State} (h : KeepsFlush s u) (k : KeepsFlush u t) : KeepsFlush s t where
  qMem := k.qMem.trans h.qMem
  qCount := k.qCount.trans h.qCount
  qLock := k.qLock.trans h.qLock
  batchSrc := k.batchSrc.trans h.batchSrc
  batchN := k.batchN.trans h.batchN
  arbState := k.arbState.trans h.arbState

/-- The flush has ended: the count and the lock are cleared, the entries stay (44_arbiter.md R191). -/
structure CompletesFlush (s t : State) : Prop where
  qMem : t.qMem = s.qMem
  qCount : t.qCount = 0
  qLock : t.qLock = false
  arbState : t.arbState = .cycle

theorem KeepsFlush.trans_completes {s u t : State} (h : KeepsFlush s u) (e : CompletesFlush u t) : CompletesFlush s t :=
  { e with qMem := e.qMem.trans h.qMem }

section
variable {s t : State}

/-! ### The operations that a flush in progress leaves enabled -/

/-- DRIVE writes the encoder's fields and the outputs (10_state.md R27). -/
theorem keepsFlush_driveCall {cap : Nat} (h : driveCall cap s = .next t) : KeepsFlush s t := by
  obtain ⟨-, -, -, out, last, s', hl, rfl⟩ := driveCall_cases h
  obtain ⟨ph, i, b, n, d, rfl⟩ := driveLoop_wrote hl
  exact {}

theorem keepsFlush_playSymbol {y : Symbol} (h : playSymbol y s = .next t) : KeepsFlush s t := by
  obtain ⟨rest, -, rfl⟩ := playSymbol_cases h
  exact {}

/-- A command accepted while the queue is locked is HELDKEY or SETCHAN, which do not touch the queue (R56). -/
theorem keepsFlush_acceptCommand {c : Command} (hl : s.qLock = true) (ha : acceptable c s = true)
    (h : acceptCommand c s = .next t) : KeepsFlush s t := by
  rcases acceptable_locked_cases hl ha with ⟨b, rfl⟩ | ⟨b, rfl⟩
  all_goals
    injection h with h
    subst h
    exact {}

theorem keepsFlush_issueCommand {c : Command} (hl : s.qLock = true) (h : issueCommand c s = .next t) :
    KeepsFlush s t := by
  rcases issueCommand_cases h with ⟨-, ha, h⟩ | ⟨-, rfl⟩
  · exact keepsFlush_acceptCommand hl ha h
  · exact {}

theorem completesFlush_flushEnd {r : Token} (h : flushEnd r s = .next t) : CompletesFlush s t := by
  obtain ⟨-, -, rfl⟩ := flushEnd_cases h
  exact ⟨by simp, rfl, rfl, rfl⟩

/-! ### Every move during a flush -/

/-- A move made during a flush keeps it or completes it; no other step of the arbiter is enabled (44_arbiter.md R181). -/
theorem moved_during_flush (hl : s.qLock = true) (ha : s.arbState = .txFlush) (hm : Moved s t) :
    KeepsFlush s t ∨ CompletesFlush s t := by
  have hother : ∀ {a : ArbState}, s.arbState = a → a ≠ .txFlush → KeepsFlush s t ∨ CompletesFlush s t :=
    fun h hne => absurd (h.symm.trans ha) hne
  cases hm with
  | returned v ht => subst ht; exact .inl {}
  | delivered frames events ht => subst ht; exact .inl {}
  | raised d ht => subst ht; exact .inl {}
  | encoderReset _ ht => subst ht; exact .inl {}
  | played y h => exact .inl (keepsFlush_playSymbol h)
  | drove cap h => exact .inl (keepsFlush_driveCall h)
  | issued c h => exact .inl (keepsFlush_issueCommand hl h)
  | heldEnded r h => exact hother (heldEnd_cases h).1 (by decide)
  | stopEnded r h => exact hother (stopEnd_cases h).1 (by decide)
  | flushEnded r h => exact .inr (completesFlush_flushEnd h)
  | cycled h => exact hother (cycleStep_cases h).1 (by decide)
  | waited h => exact hother (waitStep_cases h).1 (by decide)

theorem step_during_flush (hl : s.qLock = true) (ha : s.arbState = .txFlush) (h : step s = .next t) :
    KeepsFlush s t ∨ CompletesFlush s t := by
  obtain ⟨l, -, hm | rfl | ⟨c, rest, -, hacc, hc⟩⟩ := step_moved h
  · have hinbox : KeepsFlush s (s.setInbox l) := {}
    exact (moved_during_flush (s := s.setInbox l) hl ha hm).imp hinbox.trans hinbox.trans_completes
  · exact .inl {}
  · have hport : KeepsFlush s ((s.setInbox l).setPort rest) := {}
    exact .inl (hport.trans (keepsFlush_acceptCommand hl (by simpa using hacc) hc))

/-! ### The completion by the timer -/

/-- The timer completes a flush, with the token `timeout`; what the environment does next and what waits at the port stay
(44_arbiter.md R191, R194, 60_exceptions.md R240). -/
theorem timer_completesFlush (ha : s.arbState = .txFlush) :
    ∃ t, arbiterStep s = .next t ∧ CompletesFlush s t ∧ t.tokens = s.tokens ++ [.timeout] ∧ t.port = s.port ∧
      t.inbox = s.inbox := by
  have hend : flushEnd .timeout s =
      .next (((((s.settleLine .timeout).notify .timeout).setQueue s.qMem 0).setLock false).setArb .cycle) := by
    simp [flushEnd, resultAllowed, ha]
  refine ⟨_, ?_, completesFlush_flushEnd hend, rfl, rfl, rfl⟩
  simpa [arbiterStep, endTransmission, ha] using hend

/-- A flush that blocks the oldest waiting command is completed by the step, when no event is left (20_memory.md R55). -/
theorem step_completesFlush {c : Command} {rest : List Command} (hin : s.inbox = []) (ha : s.arbState = .txFlush)
    (hp : s.port = c :: rest) (hblocked : acceptable c s = false) :
    ∃ t, step s = .next t ∧ CompletesFlush s t ∧ t.tokens = s.tokens ++ [.timeout] ∧ t.port = s.port ∧
      t.inbox = s.inbox := by
  rw [step_of_inbox_nil hin, autonomous_of_blocked hp hblocked]
  exact timer_completesFlush ha

end

/-- Settles O53: a step during a flush keeps it or completes it. With no event left the command that waits on the lock is
blocked, so the timer completes the flush, and then that command is accepted. -/
theorem queueIsStableDuringFlush : Obligations.QueueIsStableDuringFlush := by
  refine ⟨fun s t hl ha hstep => ?_, fun s c rest hin hl ha hp hc => ?_⟩
  · rcases step_during_flush hl ha hstep with k | e
    · exact ⟨k.qMem, .inl ⟨k.arbState.trans ha, k.qLock.trans hl, k.qCount, k.batchSrc, k.batchN⟩⟩
    · exact ⟨e.qMem, .inr ⟨e.arbState, e.qLock, e.qCount⟩⟩
  · obtain ⟨t, hstep, e, htokens, hport, hinbox⟩ :=
      step_completesFlush hin ha hp (by simp [acceptable_queueCommand hc, hl])
    exact ⟨t, hstep, e.arbState, e.qLock, e.qCount, htokens, hport,
      step_accepts (hinbox.trans hin) (hport.trans hp) (by simp [acceptable_queueCommand hc, e.qLock])⟩

end Sys2Proof.Proofs.QueueMemory
end

section
/-! PROOFS. The family 30_encoding.md, part one: decoding and encoding undo each other. The operands come first, then the PKT
and SYM words, then the codes of one byte; the statements about all operations cite these by cases. -/

namespace Sys2Proof.Proofs.Encoding

open Sys2Proof

/-! ### Bytes and operand values -/

@[simp] theorem le16_bytes (v : BitVec 16) : le16 (lowByte v) (highByte v) = v := Machine.hi_lo_split v

@[simp] theorem lowByte_le16 (lo hi : Byte) : lowByte (le16 lo hi) = lo := BitVec.extractLsb'_append_eq_right

@[simp] theorem highByte_le16 (lo hi : Byte) : highByte (le16 lo hi) = hi := BitVec.extractLsb'_append_eq_left

theorem bytesOf16_le16 (lo hi : Byte) : bytesOf16 (le16 lo hi) = [lo, hi] := by simp [bytesOf16]

theorem narrowByte_setWidth {n : Nat} (hn : n ≤ 8) (v : BitVec n) : narrowByte n (v.setWidth 8) = some v := by
  have hv : v.toNat < 2 ^ n := v.isLt
  have hbyte : (v.setWidth 8).toNat = v.toNat := by
    simpa using Nat.mod_eq_of_lt (hv.trans_le (Nat.pow_le_pow_right (by decide) hn))
  simp [narrowByte, hbyte, hv]

/-- `n` has at most `n` base-256 digits, so `n` as fuel loses none. -/
theorem natOfBytes_digitBytes {fuel n : Nat} (h : n ≤ fuel) : natOfBytes (digitBytes fuel n) = n := by
  induction fuel generalizing n with
  | zero =>
    obtain rfl : n = 0 := by omega
    rfl
  | succ fuel ih =>
    simp only [digitBytes]
    split
    · next hn => simp [natOfBytes, hn]
    · next hn =>
      simp only [natOfBytes, ih (show n / 256 ≤ fuel by omega), BitVec.toNat_ofNat]
      exact Nat.mod_add_div n 256

theorem natOfBytes_bytesOfNat (n : Nat) : natOfBytes (bytesOfNat n) = n := natOfBytes_digitBytes le_rfl

theorem packetsOfBytes_bytesOfPackets (ps : List Packet) : packetsOfBytes (bytesOfPackets ps) = some ps := by
  induction ps with
  | nil => rfl
  | cons p rest ih => simp [bytesOfPackets, bytesOf16, packetsOfBytes, ih]

theorem symbolsOfBytes_bytesOfSymbols (syms : List Symbol) : symbolsOfBytes (bytesOfSymbols syms) = some syms := by
  induction syms with
  | nil => rfl
  | cons y rest ih => simp [bytesOfSymbols, bytesOfSymbol, bytesOf16, symbolsOfBytes, ih]

theorem decodePacketArg_bytesOf16 (f : Packet → Instr) (v : Packet) : decodePacketArg f (bytesOf16 v) = some (f v) := by
  simp [decodePacketArg, bytesOf16]

theorem decodeSymbolArg_bytesOfSymbol (f : Symbol → Instr) (y : Symbol) :
    decodeSymbolArg f (bytesOfSymbol y) = some (f y) := by
  simp [decodeSymbolArg, bytesOfSymbol, bytesOf16]

theorem tokenOfByte_byteOfToken (r : Token) : tokenOfByte (byteOfToken r) = some r := by
  cases r <;> rfl

theorem eq_ofNat_of_toNat_eq {b : Byte} {n : Nat} (h : b.toNat = n) : b = BitVec.ofNat 8 n := by
  rw [← h, BitVec.ofNat_toNat, BitVec.setWidth_eq]

theorem byteOfToken_of_tokenOfByte {b : Byte} {r : Token} (h : tokenOfByte b = some r) : byteOfToken r = b := by
  unfold tokenOfByte at h
  split at h
  case h_6 => cases h
  all_goals next hb => cases h; exact (eq_ofNat_of_toNat_eq hb).symm

theorem decodeStepPart_bytesOfStepPart (part : StepPart) : decodeStepPart (bytesOfStepPart part) = some part := by
  cases part with
  | start => rfl
  | complete r => simp [bytesOfStepPart, decodeStepPart, tokenOfByte_byteOfToken]

theorem decodeTransmitPart_bytesOfTransmitPart (part : TransmitPart) :
    decodeTransmitPart (bytesOfTransmitPart part) = some part := by
  cases part with
  | start => rfl
  | drive cap => simp [bytesOfTransmitPart, decodeTransmitPart, natOfBytes_bytesOfNat]
  | finish r => simp [bytesOfTransmitPart, decodeTransmitPart, tokenOfByte_byteOfToken]

/-! ### Packet words -/

/-- The word `encodePkt` lays out: a row's match value with the channel and checksum fields placed (30_encoding.md R60). -/
def pktWord (m : BitVec 16) (c : Channel) (x : Nibble) : BitVec 16 := m ||| c.setWidth 16 <<< 12 ||| x.setWidth 16

theorem encodePkt_eq (m : BitVec 16) (c : Channel) (x : Nibble) : encodePkt m c x = ⟨.pkt, bytesOf16 (pktWord m c x)⟩ :=
  rfl

/-- Match value, channel and checksum of a word are all of its bits: no bit is dropped. -/
theorem pktWord_of_fields (w : BitVec 16) : pktWord (w &&& pktMask) (w.extractLsb' 12 3) (w.extractLsb' 0 4) = w := by
  ext i hi
  simp only [pktWord, pktMask]
  interval_cases i <;> simp

section
variable {m : BitVec 16} (hm : m &&& pktMask = m) (c : Channel) (x : Nibble)
include hm

theorem pktWord_and_mask : pktWord m c x &&& pktMask = m := by
  have hchannel : ∀ c : Channel, c.setWidth 16 <<< 12 &&& pktMask = 0 := by decide
  have hchecksum : ∀ x : Nibble, x.setWidth 16 &&& pktMask = 0 := by decide
  simp [pktWord, BitVec.and_or_distrib_right, hm, hchannel, hchecksum]

theorem pktWord_channel : (pktWord m c x).extractLsb' 12 3 = c := by
  rw [← hm]
  ext i hi
  simp only [pktWord, pktMask]
  interval_cases i <;> simp

theorem pktWord_checksum : (pktWord m c x).extractLsb' 0 4 = x := by
  rw [← hm]
  ext i hi
  simp only [pktWord, pktMask]
  interval_cases i <;> simp

end

theorem pktRows_masked : ∀ row ∈ pktRows, row.1 &&& pktMask = row.1 := by
  simp [pktRows, pktMask]

theorem encode_pktRow : ∀ row ∈ pktRows, ∀ (c : Channel) (x : Nibble), encode (row.2 c x) = encodePkt row.1 c x := by
  simp [pktRows, encode]

/-- No two rows have the same match value, so the decoder finds the row it is given. -/
theorem find_pktRow {row : BitVec 16 × (Channel → Nibble → Instr)} (h : row ∈ pktRows) :
    pktRows.find? (fun r => row.1 == r.1) = some row := by
  have hdistinct : (pktRows.map Prod.fst).Nodup := by decide
  obtain ⟨found, hfound⟩ := Option.isSome_iff_exists.mp
    (List.find?_isSome (p := fun r => row.1 == r.1).mpr ⟨row, h, beq_self_eq_true row.1⟩)
  have hmatch : row.1 = found.1 := by simpa using List.find?_some hfound
  rw [hfound, List.inj_on_of_nodup_map hdistinct h (List.mem_of_find?_eq_some hfound) hmatch]

theorem decode_encodePkt {m : BitVec 16} {f : Channel → Nibble → Instr} (h : (m, f) ∈ pktRows) (c : Channel)
    (x : Nibble) : decode (encodePkt m c x) = some (f c x) := by
  have hm : m &&& pktMask = m := pktRows_masked _ h
  calc decode (encodePkt m c x)
    _ = decodePktWord (le16 (lowByte (pktWord m c x)) (highByte (pktWord m c x))) := rfl
    _ = some (f c x) := by
      simp [decodePktWord, pktWord_and_mask hm, find_pktRow h, pktWord_channel hm, pktWord_checksum hm]

theorem encode_of_decodePkt {bytes : List Byte} {i : Instr} (h : decodePkt bytes = some i) :
    encode i = ⟨.pkt, bytes⟩ := by
  unfold decodePkt at h
  split at h
  · next b0 b1 =>
    obtain ⟨row, hfound, rfl⟩ := Option.map_eq_some_iff.mp h
    have hmatch : le16 b0 b1 &&& pktMask = row.1 := by simpa using List.find?_some hfound
    rw [encode_pktRow row (List.mem_of_find?_eq_some hfound), ← hmatch, encodePkt_eq, pktWord_of_fields, bytesOf16_le16]
  · cases h

/-! ### Symbol words -/

theorem encode_symRow :
    ∀ row ∈ symRows, encode row.2 = encodeSym (row.1.extractLsb' 16 16) (row.1.extractLsb' 0 16) := by
  decide

theorem encode_of_decodeSym {bytes : List Byte} {i : Instr} (h : decodeSym bytes = some i) :
    encode i = ⟨.sym, bytes⟩ := by
  unfold decodeSym at h
  split at h
  · next b0 b1 b2 b3 =>
    obtain ⟨before, after, hrows, -⟩ := List.lookup_eq_some_iff.mp h
    have hspace : (le16 b2 b3 ++ le16 b0 b1).extractLsb' 0 16 = le16 b0 b1 := BitVec.extractLsb'_append_eq_right
    have hmark : (le16 b2 b3 ++ le16 b0 b1).extractLsb' 16 16 = le16 b2 b3 := BitVec.extractLsb'_append_eq_left
    rw [encode_symRow (le16 b2 b3 ++ le16 b0 b1, i) (by simp [hrows])]
    simp only [encodeSym, hspace, hmark, bytesOf16_le16, List.cons_append, List.nil_append]
  · cases h

/-! ### Coded bytes

Each code that decodes is the number of its row, and so the byte that the row is encoded as. -/

theorem encode_of_decodeCmd {bytes : List Byte} {i : Instr} (h : decodeCmd bytes = some i) :
    encode i = ⟨.cmd, bytes⟩ := by
  unfold decodeCmd at h
  split at h
  · cases h
  · split at h
    case h_5 => cases h
    all_goals next hop => cases h; rw [eq_ofNat_of_toNat_eq hop]; rfl

theorem encode_of_decodeOut {bytes : List Byte} {i : Instr} (h : decodeOut bytes = some i) :
    encode i = ⟨.out, bytes⟩ := by
  unfold decodeOut at h
  split at h
  · split at h
    case h_6 => cases h
    all_goals next hb => cases h; rw [eq_ofNat_of_toNat_eq hb]; rfl
  · cases h

theorem encode_of_decodeWake {bytes : List Byte} {i : Instr} (h : decodeWake bytes = some i) :
    encode i = ⟨.wake, bytes⟩ := by
  unfold decodeWake at h
  split at h
  · split at h
    case h_3 => cases h
    all_goals next hb => cases h; rw [eq_ofNat_of_toNat_eq hb]; rfl
  · cases h

theorem encode_of_decodeArbState {bytes : List Byte} {i : Instr} (h : decodeArbState bytes = some i) :
    encode i = ⟨.arbState, bytes⟩ := by
  unfold decodeArbState at h
  split at h
  · split at h
    case h_3 => cases h
    all_goals next hb => cases h; rw [eq_ofNat_of_toNat_eq hb]; rfl
  · split at h
    case h_4 => cases h
    all_goals
      next hb =>
        obtain ⟨r, hr, rfl⟩ := Option.map_eq_some_iff.mp h
        rw [eq_ofNat_of_toNat_eq hb, ← byteOfToken_of_tokenOfByte hr]
        rfl
  · cases h

theorem encode_of_decodeEncPhase {bytes : List Byte} {i : Instr} (h : decodeEncPhase bytes = some i) :
    encode i = ⟨.encPhase, bytes⟩ := by
  unfold decodeEncPhase at h
  split at h
  · split at h
    case h_4 => cases h
    all_goals next hb => cases h; rw [eq_ofNat_of_toNat_eq hb]; rfl
  · cases h

theorem encode_of_decodeBatchSrc {bytes : List Byte} {i : Instr} (h : decodeBatchSrc bytes = some i) :
    encode i = ⟨.batchSrc, bytes⟩ := by
  unfold decodeBatchSrc at h
  split at h
  · split at h
    case h_3 => cases h
    all_goals next hb => cases h; rw [eq_ofNat_of_toNat_eq hb]; rfl
  · cases h

/-! ### Codes that never occur -/

theorem decodeOut_refuses {b : Byte} (h : 5 ≤ b.toNat) : decodeOut [b] = none := by
  simp only [decodeOut]
  split
  case h_6 => rfl
  all_goals omega

theorem decodeDiag_refuses {b : Byte} (info : List Byte) (h : 3 ≤ b.toNat) : decodeDiag (b :: info) = none := by
  simp only [decodeDiag]
  split
  case h_4 => rfl
  all_goals omega

theorem decodeArbState_refuses {b : Byte} (r : Byte) (h : 5 ≤ b.toNat) :
    decodeArbState [b] = none ∧ decodeArbState [b, r] = none := by
  simp only [decodeArbState]
  constructor
  · split
    case h_3 => rfl
    all_goals omega
  · split
    case h_4 => rfl
    all_goals omega

theorem decodeEncPhase_refuses {b : Byte} (h : 3 ≤ b.toNat) : decodeEncPhase [b] = none := by
  simp only [decodeEncPhase]
  split
  case h_4 => rfl
  all_goals omega

/-! ### Every operation -/

/-- Settles O1: row by row of the table. A PKT row is found again under its mask, a coded row by its code, and the operands
are read back from their bytes. -/
theorem decodeEncodeEveryOperation : Obligations.DecodeEncodeEveryOperation := by
  intro i
  cases i with
  | pktStop c x | pktLb c x | pktLf c x | pktLbLf c x | pktRf c x | pktLbRf c x | pktLfRf c x | pktLbLfRf c x
  | pktRb c x | pktLbRb c x | pktLfRb c x | pktLbLfRb c x | pktRfRb c x | pktLbRfRb c x | pktLfRfRb c x
  | pktLbLfRfRb c x => exact decode_encodePkt (by simp [pktRows]) c x
  | symStart | symBit0 | symBit1 | symEnd => rfl
  | append payload | flush payload | heldKey payload | setChan payload => rfl
  | outDone | outInvalidArg | outTimeout | outFail | outUnknownError => rfl
  | diagFlushEmpty => rfl
  | diagAppendOverflow dropped => simp [encode, decode, decodeDiag, natOfBytes_bytesOfNat]
  | diagInvalidFrame v => simp [encode, decode, decodeDiag, bytesOf16]
  | wakeContinue | wakeFlush => rfl
  | arbStateCycle | arbStateWait => rfl
  | arbStateTxHeld r | arbStateTxStop r | arbStateTxFlush r =>
    simp [encode, decode, decodeArbState, tokenOfByte_byteOfToken]
  | encPhaseStart | encPhaseWord | encPhaseEnd => rfl
  | batchSrcBuf | batchSrcQueue => rfl
  | checksum v | validate v => exact decodePacketArg_bytesOf16 _ v
  | singleKey k => simp [encode, decode, decodeCall, narrowByte_setWidth]
  | encode k c => simp [encode, decode, decodeCall, narrowByte_setWidth]
  | wireBit p n => simp [encode, decode, decodeCall, bytesOf16, narrowByte_setWidth]
  | frameSeq batch => simp [encode, decode, decodeCall, packetsOfBytes_bytesOfPackets]
  | encReset | arbCycle | arbWait => rfl
  | drive cap => simp [encode, decode, decodeCall, natOfBytes_bytesOfNat]
  | waveform syms | decode syms => simp [encode, decode, decodeCall, symbolsOfBytes_bytesOfSymbols]
  | isStart y | classify y => exact decodeSymbolArg_bytesOfSymbol _ y
  | arbHeld part | arbStop part | arbFlush part => simp [encode, decode, decodeCall, decodeStepPart_bytesOfStepPart]
  | transmit part => simp [encode, decode, decodeCall, decodeTransmitPart_bytesOfTransmitPart]

/-- Settles O2: one lemma for each coded interface. -/
theorem encodeDecodeCodedFormats : Obligations.EncodeDecodeCodedFormats := by
  rintro ⟨iface, bytes⟩ i hcoded h
  cases iface with
  | pkt => exact encode_of_decodePkt h
  | sym => exact encode_of_decodeSym h
  | cmd => exact encode_of_decodeCmd h
  | out => exact encode_of_decodeOut h
  | diag => simp at hcoded
  | wake => exact encode_of_decodeWake h
  | arbState => exact encode_of_decodeArbState h
  | encPhase => exact encode_of_decodeEncPhase h
  | batchSrc => exact encode_of_decodeBatchSrc h
  | call op => simp at hcoded

/-- Settles O3: each word is the encoding of its operation, so O1 decodes it. -/
theorem specWordsDecode : Obligations.SpecWordsDecode :=
  ⟨decodeEncodeEveryOperation (.pktLf 0 4), decodeEncodeEveryOperation (.pktStop 1 0xF),
    decodeEncodeEveryOperation .symStart, decodeEncodeEveryOperation (.append [0x24, 0x81, 0x0E, 0x01]),
    decodeEncodeEveryOperation (.flush []), decodeEncodeEveryOperation (.heldKey [0x02]),
    decodeEncodeEveryOperation (.setChan [0x01])⟩

/-- Settles O4: such a code meets none of its decoder's cases. -/
theorem codesThatNeverOccurAreRefused : Obligations.CodesThatNeverOccurAreRefused :=
  ⟨fun _ h => decodeOut_refuses h, fun _ info h => decodeDiag_refuses info h,
    fun _ r h => decodeArbState_refuses r h, fun _ h => decodeEncPhase_refuses h⟩

end Sys2Proof.Proofs.Encoding
end

section
/-! PROOFS. The family 30_encoding.md, part two: what the PKT rows return, and the symbols the encoder emits. -/

namespace Sys2Proof.Proofs.PacketsAndSymbols

open Sys2Proof Sys2Proof.Machine Sys2Proof.Safety

/-! ### The fields of a packet -/

section
variable (sk : Bool) (c : Channel) (reserved : Nibble) (k : Key) (x : Nibble)

@[simp] theorem ckField_packFields : ckField (packFields sk c reserved k x) = x :=
  BitVec.extractLsb'_append_eq_right

@[simp] theorem keyField_packFields : keyField (packFields sk c reserved k x) = k :=
  (BitVec.extractLsb'_append_eq_of_le (by decide)).trans BitVec.extractLsb'_append_eq_right

@[simp] theorem reservedField_packFields : reservedField (packFields sk c reserved k x) = reserved :=
  (BitVec.extractLsb'_append_eq_of_le (by decide)).trans
    ((BitVec.extractLsb'_append_eq_of_le (by decide)).trans BitVec.extractLsb'_append_eq_right)

@[simp] theorem topNibble_packFields : topNibble (packFields sk c reserved k x) = BitVec.ofBool sk ++ c :=
  (BitVec.extractLsb'_append_eq_of_le (by decide)).trans
    ((BitVec.extractLsb'_append_eq_of_le (by decide)).trans BitVec.extractLsb'_append_eq_left)

@[simp] theorem skField_packFields : skField (packFields sk c reserved k x) = sk := by
  simp only [skField, packFields, BitVec.getLsbD_append]
  simp

/-- The checksum does not depend on the checksum field (40_packet_checksum.md R91). -/
theorem checksumOf_packFields :
    checksumOf (packFields sk c reserved k x) = 0xF ^^^ (BitVec.ofBool sk ++ c) ^^^ reserved ^^^ k := by
  simp [checksumOf]

end

theorem ckField_or_setWidth (u : Packet) (ck : Nibble) : ckField (u ||| ck.setWidth 16) = ckField u ||| ck := by
  have hlow : (ck.setWidth 16).extractLsb' 0 4 = ck := by
    ext i hi
    simp [show i < 16 by omega, BitVec.getLsbD_eq_getElem hi]
  rw [ckField, BitVec.extractLsb'_or, hlow, ckField]

theorem ckField_encodePacket (k : Key) (c : Channel) :
    ckField (encodePacket k c) = checksumOf (packFields (singleKeyOf k) c reservedTx k 0) := by
  simp [encodePacket, ckField_or_setWidth]

/-! ### The PKT rows -/

/-- A PKT row fixes every other field, so its word conforms exactly when its checksum is that of ENCODE (30_encoding.md
R62). -/
theorem conforming_packFields (k : Key) (c : Channel) (x : Nibble) :
    conforming (packFields (singleKeyOf k) c reservedTx k x) = decide (x = ckField (encodePacket k c)) := by
  rw [ckField_encodePacket, checksumOf_packFields]
  simp [conforming, validPacket, checksumOf_packFields, beq_eq_decide]

theorem exec_pktOfKey (k : Key) (c : Channel) (x : Nibble) (s : State) :
    exec (pktOfKey k c x) s = packetRow k c x s := by
  obtain ⟨n⟩ := k
  fin_cases n <;> rfl

/-- Settles O19: each of the sixteen rows is `packetRow` of its key. -/
theorem packetRowsResult : Obligations.PacketRowsResult := by
  intro k c x s
  rw [exec_pktOfKey, packetRow, conforming_packFields]
  rfl

/-! ### The symbols of DRIVE -/

/-- From `s` to `t` the encoder emitted symbols of the transmit alphabet only (30_encoding.md R66). -/
def EmitsAlphabet (s t : State) : Prop := ∃ out, t.symbols = s.symbols ++ out ∧ ∀ y ∈ out, y ∈ transmitAlphabet

section
variable {s t : State}

theorem emitsAlphabet_of_symbols_eq (h : t.symbols = s.symbols) : EmitsAlphabet s t := ⟨[], by simp [h], by simp⟩

theorem bitSym_mem_transmitAlphabet (b : Bool) : bitSym b ∈ transmitAlphabet := by
  cases b <;> decide

theorem beat_symbol_mem {sym : Symbol} {last : Bool} (h : beat s = .ok (sym, last, t)) : sym ∈ transmitAlphabet := by
  obtain ⟨p, -, hcase⟩ := beat_cases h
  rcases hcase with ⟨-, rfl, -⟩ | ⟨-, -, rfl, -⟩ | ⟨-, -, rfl, -⟩ | ⟨-, -, rfl, -⟩ | ⟨-, -, rfl, -⟩
  · decide
  · exact bitSym_mem_transmitAlphabet _
  · exact bitSym_mem_transmitAlphabet _
  · decide
  · decide

theorem driveLoop_symbols_mem {cap : Nat} {out : List Symbol} {last : Bool}
    (h : driveLoop cap s = .ok (out, last, t)) : ∀ y ∈ out, y ∈ transmitAlphabet := by
  induction cap generalizing s out last with
  | zero =>
    rcases driveLoop_cases h with ⟨-, rfl, -⟩ | ⟨c, sym, hc, -⟩ | ⟨c, sym, s1, rest, hc, -⟩
    · simp
    · simp at hc
    · simp at hc
  | succ cap ih =>
    rcases driveLoop_cases h with ⟨hc, -⟩ | ⟨c, sym, -, hb, rfl, -⟩ | ⟨c, sym, s1, rest, hc, hb, hl, rfl⟩
    · simp at hc
    · simpa using beat_symbol_mem hb
    · obtain rfl : cap = c := by omega
      exact List.forall_mem_cons.mpr ⟨beat_symbol_mem hb, ih hl⟩

theorem emitsAlphabet_driveCall {cap : Nat} (h : driveCall cap s = .next t) : EmitsAlphabet s t := by
  obtain ⟨-, -, -, out, last, s', hl, rfl⟩ := driveCall_cases h
  obtain ⟨_, _, _, _, _, rfl⟩ := driveLoop_wrote hl
  exact ⟨out, rfl, driveLoop_symbols_mem hl⟩

/-! ### Operations that emit no symbol -/

theorem symbols_cycleStep (h : cycleStep s = .next t) : t.symbols = s.symbols := by
  obtain ⟨-, ⟨-, rfl⟩ | ⟨-, -, rfl⟩ | ⟨-, -, rfl⟩⟩ := cycleStep_cases h <;> rfl

theorem symbols_waitStep (h : waitStep s = .next t) : t.symbols = s.symbols := by
  obtain ⟨-, ⟨-, h⟩ | ⟨-, -, rfl⟩ | ⟨-, -, rfl⟩⟩ := waitStep_cases h
  · obtain ⟨-, rfl⟩ | ⟨-, m, -, rfl⟩ := flushBegin_cases h <;> rfl
  · rfl
  · rfl

theorem symbols_acceptCommand {c : Command} (h : acceptCommand c s = .next t) : t.symbols = s.symbols := by
  rcases acceptCommand_cases h with ⟨payload, -, h⟩ | ⟨-, rfl⟩ | ⟨b, -, rfl⟩ | ⟨b, -, rfl⟩
  · obtain ⟨m, -, rfl⟩ := appendCommand_cases h
    rfl
  · obtain ⟨-, hf⟩ | ⟨-, hf⟩ := flushCommand_cases s <;> rw [hf] <;> rfl
  · rfl
  · rfl

theorem symbols_issueCommand {c : Command} (h : issueCommand c s = .next t) : t.symbols = s.symbols := by
  obtain ⟨-, -, h⟩ | ⟨-, rfl⟩ := issueCommand_cases h
  · exact symbols_acceptCommand h
  · rfl

/-! ### Every operation -/

theorem emitsAlphabet_of_moved (h : Moved s t) : EmitsAlphabet s t := by
  cases h with
  | returned v h | delivered frames events h | raised d h | encoderReset _ h =>
    subst h
    exact emitsAlphabet_of_symbols_eq rfl
  | played y h =>
    obtain ⟨rest, -, rfl⟩ := playSymbol_cases h
    exact emitsAlphabet_of_symbols_eq rfl
  | drove cap h => exact emitsAlphabet_driveCall h
  | issued c h => exact emitsAlphabet_of_symbols_eq (symbols_issueCommand h)
  | heldEnded r h =>
    obtain ⟨-, -, rfl⟩ := heldEnd_cases h
    exact emitsAlphabet_of_symbols_eq (by simp)
  | stopEnded r h =>
    obtain ⟨-, -, rfl⟩ := stopEnd_cases h
    exact emitsAlphabet_of_symbols_eq (by simp)
  | flushEnded r h =>
    obtain ⟨-, -, rfl⟩ := flushEnd_cases h
    exact emitsAlphabet_of_symbols_eq (by simp)
  | cycled h => exact emitsAlphabet_of_symbols_eq (symbols_cycleStep h)
  | waited h => exact emitsAlphabet_of_symbols_eq (symbols_waitStep h)

end

/-- Settles O59: among the moves of the block only a DRIVE call emits, and each of its beats emits a symbol of the
alphabet. -/
theorem onlyTheAlphabetIsEmitted : Obligations.OnlyTheAlphabetIsEmitted :=
  fun _ _ _ h => emitsAlphabet_of_moved (exec_moved h)

end Sys2Proof.Proofs.PacketsAndSymbols
end

section
/-! PROOFS. The family 40_packet_checksum.md: what the four pure functions return, the properties of ENCODE and the laws of
VALIDATE. ENCODE's result is the packet of five fields with its checksum in place (`encodePacket_eq_packFields`), so its
properties are read off the fields. VALIDATE asks whether the XOR of the four nibbles, `nibbleXor`, is 0xF; that XOR is linear
in the packet and blind to the position of a nibble, and the laws follow from these two facts. -/

namespace Sys2Proof.Proofs.PacketChecksum

open Sys2Proof Sys2Proof.Machine Sys2Proof.Safety
open Sys2Proof.Proofs.BlockState Sys2Proof.Proofs.PacketsAndSymbols

/-! ### The XOR of the four nibbles -/

/-- The XOR of the four nibbles of a packet (40_packet_checksum.md R97 (a)). -/
def nibbleXor (p : Packet) : Nibble := topNibble p ^^^ reservedField p ^^^ keyField p ^^^ ckField p

theorem nibbleXor_eq_checksumOf_xor (p : Packet) : nibbleXor p = 0xF#4 ^^^ (checksumOf p ^^^ ckField p) := by
  simp [nibbleXor, checksumOf, ← BitVec.xor_assoc]

/-- The stored checksum is the recomputed one exactly when it completes the XOR of the other nibbles to the seed. -/
theorem validPacket_iff_nibbleXor (p : Packet) : validPacket p = true ↔ nibbleXor p = 0xF#4 := by
  calc validPacket p = true
      ↔ checksumOf p = ckField p := by rw [validPacket, beq_iff_eq, eq_comm]
    _ ↔ checksumOf p ^^^ ckField p = 0#4 := BitVec.xor_eq_zero_iff.symm
    _ ↔ 0xF#4 ^^^ (checksumOf p ^^^ ckField p) = 0xF#4 ^^^ 0#4 := (BitVec.xor_right_inj _).symm
    _ ↔ nibbleXor p = 0xF#4 := by rw [nibbleXor_eq_checksumOf_xor, BitVec.xor_zero]

theorem nibbleXor_xor (p q : Packet) : nibbleXor (p ^^^ q) = nibbleXor p ^^^ nibbleXor q := by
  simp only [nibbleXor, topNibble, reservedField, keyField, ckField, BitVec.extractLsb'_xor]
  ac_rfl

/-- A single bit of a packet is seen at its position inside its nibble, whichever nibble that is. -/
theorem nibbleXor_bit {a j : Nat} (ha : a < 4) (hj : j < 4) : nibbleXor (1#16 <<< (4 * a + j)) = 1#4 <<< j := by
  interval_cases a <;> interval_cases j <;> decide

/-- The byte exchange takes nibble `n + 2` to the place of nibble `n`, counted modulo 4 (40_packet_checksum.md R99). -/
theorem extractLsb'_swapBytes (p : Packet) {n : Nat} (hn : n < 4) :
    (swapBytes p).extractLsb' (4 * n) 4 = p.extractLsb' (4 * ((n + 2) % 4)) 4 := by
  apply BitVec.eq_of_getLsbD_eq
  intro i hi
  rw [BitVec.getLsbD_extractLsb', BitVec.getLsbD_extractLsb', swapBytes_getLsbD p _ (by omega)]
  congr 2
  split <;> omega

theorem nibbleXor_swapBytes (p : Packet) : nibbleXor (swapBytes p) = nibbleXor p := by
  have hck : ckField (swapBytes p) = reservedField p := extractLsb'_swapBytes p (n := 0) (by decide)
  have hkey : keyField (swapBytes p) = topNibble p := extractLsb'_swapBytes p (n := 1) (by decide)
  have hreserved : reservedField (swapBytes p) = ckField p := extractLsb'_swapBytes p (n := 2) (by decide)
  have htop : topNibble (swapBytes p) = keyField p := extractLsb'_swapBytes p (n := 3) (by decide)
  rw [nibbleXor, hck, hkey, hreserved, htop, nibbleXor]
  ac_rfl

/-! ### The laws of VALIDATE -/

/-- One flipped bit changes one nibble, and the XOR with it (40_packet_checksum.md R97 (c)). -/
theorem validPacket_xor_bit {p : Packet} {i : Nat} (hi : i < 16) (hp : validPacket p = true) :
    validPacket (p ^^^ (1#16 <<< i)) = false := by
  have hxor : nibbleXor (p ^^^ (1#16 <<< i)) = 0xF#4 ^^^ (1#4 <<< (i % 4)) := by
    rw [nibbleXor_xor, (validPacket_iff_nibbleXor p).mp hp, ← Nat.div_add_mod i 4,
      nibbleXor_bit (by omega) (by omega), Nat.mul_add_mod, Nat.mod_mod]
  have hbit : ∀ j, j < 4 → 0xF#4 ^^^ (1#4 <<< j) ≠ 0xF#4 := by decide
  rw [← Bool.not_eq_true, validPacket_iff_nibbleXor, hxor]
  exact hbit _ (Nat.mod_lt _ (by decide))

/-- Two bits flipped at one position of two nibbles cancel in the XOR (40_packet_checksum.md R97 (d)). -/
theorem validPacket_xor_bit_xor_bit (p : Packet) {a b j : Nat} (ha : a < 4) (hb : b < 4) (hj : j < 4) :
    validPacket (p ^^^ (1#16 <<< (4 * a + j)) ^^^ (1#16 <<< (4 * b + j))) = validPacket p := by
  rw [Bool.eq_iff_iff, validPacket_iff_nibbleXor, validPacket_iff_nibbleXor, nibbleXor_xor, nibbleXor_xor,
    nibbleXor_bit ha hj, nibbleXor_bit hb hj, BitVec.xor_assoc, BitVec.xor_self, BitVec.xor_zero]

theorem validPacket_swapBytes (p : Packet) : validPacket (swapBytes p) = validPacket p := by
  rw [Bool.eq_iff_iff, validPacket_iff_nibbleXor, validPacket_iff_nibbleXor, nibbleXor_swapBytes]

/-- Settles O18: each law is a fact about the XOR of the four nibbles. -/
theorem validateLaws : Obligations.ValidateLaws :=
  ⟨validPacket_iff_nibbleXor, fun _ _ hi hp => validPacket_xor_bit hi hp,
    fun p _ _ _ ha hb _ hj hp => (validPacket_xor_bit_xor_bit p ha hb hj).trans hp, validPacket_swapBytes⟩

/-! ### What CHECKSUM, SINGLEKEY, ENCODE and VALIDATE return -/

section
variable (s : State)

theorem exec_checksum (v : Packet) : exec (.checksum v) s = .next (s.returns (.nibble (checksumOf v))) := rfl

theorem exec_singleKey (k : Key) : exec (.singleKey k) s = .next (s.returns (.bit (singleKeyOf k))) := rfl

theorem exec_encode (k : Key) (c : Channel) : exec (.encode k c) s = .next (s.returns (.packet (encodePacket k c))) := rfl

theorem exec_validate (p : Packet) : exec (.validate p) s = .next (s.returns (.verdict (validPacket p))) := rfl

end

/-- The mask clears nibble 0 only. -/
theorem extractLsb'_and_mask (v : Packet) {n : Nat} (hpos : 0 < n) (hn : n < 4) :
    (v &&& 0xFFF0#16).extractLsb' (4 * n) 4 = v.extractLsb' (4 * n) 4 := by
  have hmask : (0xFFF0#16).extractLsb' (4 * n) 4 = BitVec.allOnes 4 := by
    interval_cases n <;> decide
  rw [BitVec.extractLsb'_and, hmask, BitVec.and_allOnes]

/-- The checksum field's own bits never enter (40_packet_checksum.md R91): the mask keeps the three nibbles that do. -/
theorem checksumOf_and_mask (v : Packet) : checksumOf (v &&& 0xFFF0#16) = checksumOf v := by
  have hkey : keyField (v &&& 0xFFF0#16) = keyField v := extractLsb'_and_mask v (n := 1) (by decide) (by decide)
  have hreserved : reservedField (v &&& 0xFFF0#16) = reservedField v :=
    extractLsb'_and_mask v (n := 2) (by decide) (by decide)
  have htop : topNibble (v &&& 0xFFF0#16) = topNibble v := extractLsb'_and_mask v (n := 3) (by decide) (by decide)
  rw [checksumOf, htop, hreserved, hkey, checksumOf]

theorem singleKeyOf_eq_decide (k : Key) : singleKeyOf k = decide (k = 1 ∨ k = 2 ∨ k = 4 ∨ k = 8) := by
  simp [singleKeyOf, beq_eq_decide, Bool.or_assoc]

theorem validPacket_eq_decide (p : Packet) : validPacket p = decide (ckField p = checksumOf p) := beq_eq_decide _ _

/-- Settles O13: the mask changes no nibble the checksum reads. -/
theorem checksumResult : Obligations.ChecksumResult := by
  intro v s
  refine ⟨exec_checksum s v, ?_⟩
  rw [exec_checksum, checksumOf_and_mask, exec_checksum]

/-- Settles O14: the flag of the model is the disjunction of R92. -/
theorem singleKeyResult : Obligations.SingleKeyResult := by
  intro k s
  rw [exec_singleKey, singleKeyOf_eq_decide]
  rfl

/-- Settles O17: the verdict is the comparison of the two checksums and nothing else. -/
theorem validateResult : Obligations.ValidateResult := by
  intro p s
  rw [exec_validate, validPacket_eq_decide]
  rfl

/-! ### ENCODE -/

/-- Settles O15: ENCODE writes the formula of R94 with the model's `singleKeyOf`. -/
theorem encodeResult : Obligations.EncodeResult := by
  intro k c s
  rw [← singleKeyOf_eq_decide]
  exact exec_encode s k c

@[simp] theorem chanField_packFields (sk : Bool) (c : Channel) (reserved : Nibble) (k : Key) (x : Nibble) :
    chanField (packFields sk c reserved k x) = c :=
  (BitVec.extractLsb'_append_eq_of_le (by decide)).trans
    ((BitVec.extractLsb'_append_eq_of_le (by decide)).trans
      ((BitVec.extractLsb'_append_eq_of_le (by decide)).trans BitVec.extractLsb'_append_eq_right))

/-- The OR of R94 places the checksum in a field that is zero. -/
theorem packFields_or_setWidth (sk : Bool) (c : Channel) (reserved : Nibble) (k : Key) (x : Nibble) :
    packFields sk c reserved k 0 ||| x.setWidth 16 = packFields sk c reserved k x := by
  have hx : x.setWidth 16 = 0#12 ++ x := BitVec.setWidth_eq_append (by decide)
  rw [hx, packFields, packFields, BitVec.or_append, BitVec.or_zero]
  exact congrArg _ BitVec.zero_or

/-- ENCODE returns the packet of five fields with the checksum of R95 (e). -/
theorem encodePacket_eq_packFields (k : Key) (c : Channel) :
    encodePacket k c =
      packFields (singleKeyOf k) c reservedTx k (0xE#4 ^^^ (BitVec.ofBool (singleKeyOf k) ++ c) ^^^ k) := by
  have hseed : (0xF : Nibble) ^^^ (BitVec.ofBool (singleKeyOf k) ++ c) ^^^ reservedTx =
      0xE#4 ^^^ (BitVec.ofBool (singleKeyOf k) ++ c) := by
    rw [BitVec.xor_assoc, BitVec.xor_comm _ reservedTx, ← BitVec.xor_assoc]
    rfl
  rw [encodePacket, packFields_or_setWidth, checksumOf_packFields, ← hseed]

@[simp] theorem keyField_encodePacket (k : Key) (c : Channel) : keyField (encodePacket k c) = k := by
  rw [encodePacket_eq_packFields, keyField_packFields]

@[simp] theorem chanField_encodePacket (k : Key) (c : Channel) : chanField (encodePacket k c) = c := by
  rw [encodePacket_eq_packFields, chanField_packFields]

theorem validPacket_of_conforming {p : Packet} (h : conforming p = true) : validPacket p = true :=
  (Bool.and_eq_true_iff.mp h).2

/-- Settles O16: the fields of the result are those of `encodePacket_eq_packFields`, and the two that ENCODE is given read
back make it injective. -/
theorem encodeIsConforming : Obligations.EncodeIsConforming := by
  refine ⟨fun k c => ⟨conforming_encodePacket k c, validPacket_of_conforming (conforming_encodePacket k c),
    keyField_encodePacket k c, chanField_encodePacket k c, ?_⟩, fun k k' c c' h => ⟨?_, ?_⟩⟩
  · rw [encodePacket_eq_packFields, ckField_packFields]
  · simpa using congrArg keyField h
  · simpa using congrArg chanField h

end Sys2Proof.Proofs.PacketChecksum
end

section
/-! PROOFS. The family 41_pulse_encoder.md, part one: the pure functions. The wire order is a permutation of the bits of a
packet (`wireIndex`), so the bit-symbols of a frame last as long as its ones say. A frame is 18 symbols by their number
(`frameSymbol`), and symbol `n` of `FRAMESEQ` is symbol `n % 18` of the frame of packet `n / 18`. -/

namespace Sys2Proof.Proofs.PulseEncoder

open Sys2Proof Sys2Proof.Machine Sys2Proof.Safety

/-! ### WIREBIT -/

/-- The bit of a packet that is sent as bit-symbol `i`: bits 7 to 0, then bits 15 to 8 (41_pulse_encoder.md R111). -/
def wireIndex (i : Nat) : Nat := if i ≤ 7 then 7 - i else 23 - i

theorem wireBit_eq_getLsbD (p : Packet) {i : Nat} (hi : i < 16) : wireBit p i = p.getLsbD (wireIndex i) := by
  rw [wireBit, swapBytes_getLsbD p (15 - i) (by omega), wireIndex]
  by_cases h : i ≤ 7
  · rw [if_neg (by omega), if_pos h, show 15 - i - 8 = 7 - i by omega]
  · rw [if_pos (by omega), if_neg h, show 15 - i + 8 = 23 - i by omega]

theorem wireIndex_perm : ((List.range 16).map wireIndex).Perm (List.range 16) := by decide

/-- Settles O20: bit-symbol `i` is the bit `wireIndex i`. -/
theorem wireBitResult : Obligations.WireBitResult := by
  intro p i s
  have hbit : wireBit p i.toNat = if i.toNat ≤ 7 then p.getLsbD (7 - i.toNat) else p.getLsbD (23 - i.toNat) := by
    rw [wireBit_eq_getLsbD p i.isLt, wireIndex, apply_ite p.getLsbD]
  rw [← hbit]
  rfl

/-! ### FRAMESEQ -/

/-- Symbol number `j` of `FRAME(p)`, for `0 <= j <= 17` (41_pulse_encoder.md R113). -/
def frameSymbol (p : Packet) (j : Nat) : Symbol :=
  if j = 0 then startSymbol else if j = 17 then endSymbol else bitSym (wireBit p (j - 1))

theorem frameOf_eq_map_frameSymbol (p : Packet) : frameOf p = (List.range 18).map (frameSymbol p) := rfl

/-- Symbol `n` of the sequence belongs to packet `n / 18`: each frame has 18 symbols and none lies between two (R113). -/
theorem frameSeq_getElem? {ps : List Packet} {n : Nat} {p : Packet} (h : ps[n / 18]? = some p) :
    (frameSeq ps)[n]? = some (frameSymbol p (n % 18)) := by
  induction ps generalizing n with
  | nil => simp at h
  | cons q ps ih =>
    rw [frameSeq_cons]
    by_cases hn : n < 18
    · obtain rfl : q = p := by simpa [Nat.div_eq_of_lt hn] using h
      rw [List.getElem?_append_left (by rwa [frameOf_length]), frameOf_eq_map_frameSymbol, Nat.mod_eq_of_lt hn]
      simp [hn]
    · obtain ⟨m, rfl⟩ : ∃ m, n = m + 18 := ⟨n - 18, by omega⟩
      rw [Nat.add_div_right m (by decide), List.getElem?_cons_succ] at h
      rw [List.getElem?_append_right (by rw [frameOf_length]; omega), frameOf_length, Nat.add_sub_cancel, ih h,
        Nat.add_mod_right]

theorem exec_frameSeq {ps : List Packet} (h : ps ≠ []) (s : State) :
    exec (.frameSeq ps) s = .next (s.returns (.symbols (frameSeq ps))) :=
  if_neg (by simpa using h)

/-- Settles O21: the length and the symbols of the sequence are `frameSeq_length` and `frameSeq_getElem?`. -/
theorem frameSeqResult : Obligations.FrameSeqResult :=
  ⟨fun ps s hne => ⟨frameSeq ps, exec_frameSeq hne s, frameSeq_length ps, fun _ _ hp => frameSeq_getElem? hp⟩,
    fun _ => rfl⟩

/-! ### WAVEFORM and the duration of a frame -/

theorem waveform_eq_flatMap (syms : List Symbol) :
    waveform syms = syms.flatMap fun y => [⟨.active, y.mark⟩, ⟨.idle, y.space⟩] := by
  induction syms with
  | nil => rfl
  | cons y rest ih => simp [waveform, ih]

/-- Settles O22: the two segments of each symbol, by recursion over the list. -/
theorem waveformResult : Obligations.WaveformResult := by
  intro syms s
  rw [← waveform_eq_flatMap]
  rfl

/-- A bit-symbol lasts 421 time units, and 290 more for a one (30_encoding.md R66). -/
theorem totalDuration_map_bitSym (f : Nat → Bool) (l : List Nat) :
    totalDuration (l.map fun i => bitSym (f i)) = 421 * l.length + 290 * l.countP f := by
  induction l with
  | nil => rfl
  | cons i rest ih =>
    rw [List.map_cons, totalDuration, ih, List.countP_cons, List.length_cons]
    cases f i <;> simp [bitSym, bit0Symbol, bit1Symbol, tMark] <;> omega

/-- The wire order only permutes the ones of a packet. -/
theorem countP_wireBit (p : Packet) : (List.range 16).countP (wireBit p) = popcount p := by
  calc (List.range 16).countP (wireBit p)
      = (List.range 16).countP (p.getLsbD ∘ wireIndex) :=
        List.countP_congr fun i hi => by rw [wireBit_eq_getLsbD p (List.mem_range.mp hi), Function.comp_apply]
    _ = ((List.range 16).map wireIndex).countP p.getLsbD := List.countP_map.symm
    _ = (List.range 16).countP p.getLsbD := wireIndex_perm.countP_eq _
    _ = popcount p := List.countP_eq_length_filter

/-- Settles O23: 1108 for Start, 16 bit-symbols, 30158 for End. -/
theorem frameDuration : Obligations.FrameDuration := by
  intro p
  have hstart : totalDuration [startSymbol] = 1108 := rfl
  have hend : totalDuration [endSymbol] = 30158 := rfl
  have hbits := totalDuration_map_bitSym (wireBit p) (List.range 16)
  rw [countP_wireBit, List.length_range] at hbits
  rw [frameOf, List.cons_append, ← List.singleton_append, totalDuration_append, totalDuration_append, hstart, hbits, hend]
  omega

end Sys2Proof.Proofs.PulseEncoder
end

section
/-! PROOFS. The family 41_pulse_encoder.md, part two: the cursor and DRIVE. `beat_start`, `beat_word`, `beat_last` and
`beat_next` say what one round of the loop does in each phase. Counted by `cursorPos` they are one fact, `beat_emits`: a beat
emits the symbol of `FRAMESEQ` at the cursor and moves the cursor one place on (`Emitted`). The closed form of DRIVE is the
induction over the capacity, the resumability theorem the induction over the calls. -/

namespace Sys2Proof.Proofs.PulseEncoder

open Sys2Proof Sys2Proof.Machine Sys2Proof.Safety

/-! ### ENC_RESET -/

theorem requestReset_of_beginEnabled {s : State} (h : BeginEnabled s) : requestReset s = .next s.encReset :=
  if_pos ((beginsTransmission_iff s).mpr h)

theorem requestReset_refused {s : State} (h : ¬ BeginEnabled s) : requestReset s = .refused .resetOutsideBegin :=
  if_neg (mt (beginsTransmission_iff s).mp h)

theorem not_beginEnabled_of_outstanding {s : State} (h : outstanding s = true) : ¬ BeginEnabled s := fun hb => by
  simp [outstanding_of_begins ((beginsTransmission_iff s).mpr hb)] at h

/-- Settles O24: the row is `requestReset`, and no transmission begins while one is outstanding. -/
theorem encResetResult : Obligations.EncResetResult :=
  fun _ => ⟨requestReset_of_beginEnabled, requestReset_refused,
    fun ho => requestReset_refused (not_beginEnabled_of_outstanding ho)⟩

/-! ### The SYM rows -/

theorem playSymbol_next {s : State} {y : Symbol} {rest : List Symbol} (h : s.txPending = y :: rest) :
    playSymbol y s = .next (s.playOne y rest) := by
  simp [playSymbol, h]

theorem playSymbol_refused {s : State} {y : Symbol} (h : s.txPending.head? ≠ some y) :
    playSymbol y s = .refused .notNextSymbol := by
  unfold playSymbol
  split
  · rfl
  · next next rest hp => exact if_neg fun he => h (by simp [hp, he])

/-- The four rows play the four symbols of the transmit alphabet (30_encoding.md R66). -/
theorem exec_symRow {i : Instr} {y : Symbol} (h : (i, y) ∈ [(Instr.symStart, startSymbol), (.symBit0, bit0Symbol),
    (.symBit1, bit1Symbol), (.symEnd, endSymbol)]) (s : State) : exec i s = playSymbol y s := by
  simp only [List.mem_cons, Prod.mk.injEq, List.not_mem_nil, or_false] at h
  rcases h with ⟨rfl, rfl⟩ | ⟨rfl, rfl⟩ | ⟨rfl, rfl⟩ | ⟨rfl, rfl⟩ <;> rfl

/-- Settles O30: each row is `playSymbol` of its symbol. -/
theorem symbolsArePlayedInOrder : Obligations.SymbolsArePlayedInOrder :=
  ⟨fun s _ _ _ hi hp => (exec_symRow hi s).trans (playSymbol_next hp),
    fun s _ _ hi hp => (exec_symRow hi s).trans (playSymbol_refused hp)⟩

/-! ### One beat in each phase -/

section
variable {s : State} {p : Packet}

theorem beat_start (hp : readBatch s s.encIndex = .ok p) (h : s.encPhase = .start) :
    beat s = .ok (startSymbol, false, s.setCursor .word s.encIndex 0) := by
  simp [beat, hp, h]

theorem beat_word (hp : readBatch s s.encIndex = .ok p) (h : s.encPhase = .word) :
    beat s = .ok (bitSym (wireBit p s.encBit), false, s.setCursor (if s.encBit = 15 then .fin else .word) s.encIndex
      (if s.encBit = 15 then 0 else s.encBit + 1)) := by
  by_cases hb : s.encBit = 15 <;> simp [beat, hp, h, hb]

/-- The End of the last packet completes the batch. -/
theorem beat_last (hp : readBatch s s.encIndex = .ok p) (h : s.encPhase = .fin) (hn : s.encIndex + 1 = s.batchN) :
    beat s = .ok (endSymbol, true, s.completeBatch) := by
  simp [beat, hp, h, hn]

/-- The End of any other packet moves the cursor to the next one. -/
theorem beat_next (hp : readBatch s s.encIndex = .ok p) (h : s.encPhase = .fin) (hn : s.encIndex + 1 ≠ s.batchN) :
    beat s = .ok (endSymbol, false, s.setCursor .start (s.encIndex + 1) s.encBit) := by
  simp [beat, hp, h, hn]

end

/-! ### A DRIVE call and its loop -/

theorem driveLoop_of_last {cap : Nat} {s t : State} {y : Symbol} (h : beat s = .ok (y, true, t)) :
    driveLoop (cap + 1) s = .ok ([y], true, t) := by
  simp [driveLoop, h]

theorem driveLoop_of_more {cap : Nat} {s u t : State} {y : Symbol} {out : List Symbol} {last : Bool}
    (h : beat s = .ok (y, false, u)) (hl : driveLoop cap u = .ok (out, last, t)) :
    driveLoop (cap + 1) s = .ok (y :: out, last, t) := by
  simp [driveLoop, h, hl]

theorem driveCall_of_loop {cap : Nat} {s t : State} {out : List Symbol} {last : Bool} (ho : outstanding s = true)
    (hd : s.encDone = false) (hn : s.batchN ≠ 0) (hl : driveLoop cap s = .ok (out, last, t)) :
    driveCall cap s = .next ((t.handOver out).returns (.driven out last)) := by
  simp [driveCall, ho, hd, hn, hl]

theorem driveLoop_one_of_beat {s t : State} {y : Symbol} {last : Bool} (h : beat s = .ok (y, last, t)) :
    driveLoop 1 s = .ok ([y], last, t) := by
  cases last
  · exact driveLoop_of_more h rfl
  · exact driveLoop_of_last h

/-- A phase row in its phase performs one beat (41_pulse_encoder.md R120). -/
theorem driveBeat_of_beat {ph : EncPhase} {s t : State} {y : Symbol} {last : Bool} (ho : outstanding s = true)
    (hd : s.encDone = false) (hn : s.batchN ≠ 0) (hph : s.encPhase = ph) (hb : beat s = .ok (y, last, t)) :
    driveBeat ph s = .next ((t.handOver [y]).returns (.driven [y] last)) :=
  (if_neg fun hg => hg.2.2 hph).trans (driveCall_of_loop ho hd hn (driveLoop_one_of_beat hb))

/-- Settles O28: each row is the beat of its phase. -/
theorem encoderBeats : Obligations.EncoderBeats := by
  intro s p ho hd hp
  have hn : s.batchN ≠ 0 := Nat.ne_zero_of_lt (readBatch_lt hp)
  exact ⟨fun hph => driveBeat_of_beat ho hd hn hph (beat_start hp hph),
    fun hph => driveBeat_of_beat ho hd hn hph (beat_word hp hph),
    fun hph hne => driveBeat_of_beat ho hd hn hph (beat_next hp hph hne),
    fun hph heq => driveBeat_of_beat ho hd hn hph (beat_last hp hph heq)⟩

theorem exec_drive (cap : Nat) (s : State) : exec (.drive cap) s = driveCall cap s := rfl

/-- Settles O26: the three guards of `driveCall`, in their order. -/
theorem driveRefusals : Obligations.DriveRefusals := by
  intro s cap
  rw [exec_drive]
  refine ⟨fun ho => ?_, fun ho hd => ?_, fun ho hd hn => ?_⟩
  · simp [driveCall, ho]
  · simp [driveCall, ho, hd]
  · simp [driveCall, ho, hd, hn]

/-! ### The position of the cursor -/

section
variable {s : State}

theorem cursorPos_start (h : s.encPhase = .start) : cursorPos s = 18 * s.encIndex := by simp [cursorPos, h]

theorem cursorPos_word (h : s.encPhase = .word) : cursorPos s = 18 * s.encIndex + (1 + s.encBit) := by
  simp [cursorPos, h]

theorem cursorPos_fin (h : s.encPhase = .fin) : cursorPos s = 18 * s.encIndex + 17 := by simp [cursorPos, h]

/-- A legal cursor lies among the 18 symbols of the packet at `enc_index` (41_pulse_encoder.md R114). -/
theorem cursorPos_div (h : CursorLegal s) : cursorPos s / 18 = s.encIndex := by
  obtain ⟨hbit, -⟩ := h
  cases hph : s.encPhase with
  | start => rw [cursorPos_start hph]; omega
  | word => rw [cursorPos_word hph]; omega
  | fin => rw [cursorPos_fin hph]; omega

end

/-- The batch `ps` is presented and not complete, and the cursor is one of its positions. -/
structure MidBatch (s : State) (ps : List Packet) : Prop where
  batch : BatchIs s ps
  legal : CursorLegal s
  pos_lt : cursorPos s < 18 * ps.length
  notDone : s.encDone = false

/-- From `s` to `t` the encoder emitted `n` symbols of the batch `ps`, or as many as were left (41_pulse_encoder.md R117). -/
structure Emitted (s : State) (ps : List Packet) (n : Nat) (t : State) : Prop where
  running : cursorPos s + n < 18 * ps.length →
    MidBatch t ps ∧ cursorPos t = cursorPos s + n ∧ t.encTotal = s.encTotal
  complete : 18 * ps.length ≤ cursorPos s + n →
    AtStart t ∧ t.encDone = true ∧ t.encTotal = s.encTotal + BitVec.ofNat 32 ps.length

section
variable {s t u : State} {ps : List Packet}

theorem MidBatch.index_lt (h : MidBatch s ps) : s.encIndex < ps.length := by
  have := cursorPos_div h.legal
  have := h.pos_lt
  omega

theorem MidBatch.batchN_ne_zero (h : MidBatch s ps) : s.batchN ≠ 0 := by
  have := h.index_lt
  have := h.batch.1
  omega

theorem MidBatch.readBatch (h : MidBatch s ps) : readBatch s s.encIndex = .ok (ps[s.encIndex]'h.index_lt) :=
  h.batch.2 _ h.index_lt

theorem MidBatch.of_index (hb : BatchIs s ps) (hl : CursorLegal s) (hd : s.encDone = false) (hi : s.encIndex < ps.length) :
    MidBatch s ps :=
  ⟨hb, hl, by have := cursorPos_div hl; omega, hd⟩

theorem MidBatch.of_atStart (hb : BatchIs s ps) (hs : AtStart s) (hd : s.encDone = false) (hne : ps ≠ []) :
    MidBatch s ps := by
  obtain ⟨-, hindex, hbit⟩ := hs
  exact .of_index hb (by simp [CursorLegal, hbit]) hd (hindex ▸ List.length_pos_iff.mpr hne)

theorem Emitted.zero (h : MidBatch s ps) : Emitted s ps 0 s where
  running _ := ⟨h, rfl, rfl⟩
  complete hle := absurd hle (Nat.not_le.mpr h.pos_lt)

theorem Emitted.succ {n : Nat} (h : Emitted s ps 1 u) (hlt : cursorPos s + 1 < 18 * ps.length) (k : Emitted u ps n t) :
    Emitted s ps (n + 1) t := by
  obtain ⟨-, hpos, htotal⟩ := h.running hlt
  refine ⟨fun hrun => ?_, fun hdone => ?_⟩
  · obtain ⟨hmid, hpos', htotal'⟩ := k.running (by omega)
    exact ⟨hmid, by omega, htotal'.trans htotal⟩
  · rw [← htotal]
    exact k.complete (by omega)

/-- Handing the symbols over moves no cursor. -/
theorem Emitted.handedOver {n : Nat} (h : Emitted s ps n u) (out : List Symbol) (v : Value) :
    Emitted s ps n ((u.handOver out).returns v) where
  running hlt := by
    obtain ⟨hmid, hpos, htotal⟩ := h.running hlt
    exact ⟨⟨hmid.batch, hmid.legal, hmid.pos_lt, hmid.notDone⟩, hpos, htotal⟩
  complete := h.complete

/-- The symbol of the sequence at position `j` of the frame in progress. -/
theorem MidBatch.getElem?_frameSeq (h : MidBatch s ps) {j : Nat} (hj : cursorPos s = 18 * s.encIndex + j) (hlt : j < 18) :
    (frameSeq ps)[cursorPos s]? = some (frameSymbol (ps[s.encIndex]'h.index_lt) j) := by
  have hmod : cursorPos s % 18 = j := by omega
  rw [← hmod]
  exact frameSeq_getElem? (by rw [cursorPos_div h.legal]; exact List.getElem?_eq_getElem h.index_lt)

/-- A beat that emits the symbol at the cursor and moves the cursor one place on, inside the batch. -/
theorem MidBatch.emits_of_setCursor (h : MidBatch s ps) {y : Symbol} {j : Nat} {ph : EncPhase} {i b : Nat}
    (hb : beat s = .ok (y, false, s.setCursor ph i b)) (hj : cursorPos s = 18 * s.encIndex + j) (hlt : j < 18)
    (hy : frameSymbol (ps[s.encIndex]'h.index_lt) j = y) (hl : CursorLegal (s.setCursor ph i b)) (hi : i < ps.length)
    (hpos : cursorPos (s.setCursor ph i b) = cursorPos s + 1) :
    ∃ y t, (frameSeq ps)[cursorPos s]? = some y ∧ beat s = .ok (y, decide (18 * ps.length ≤ cursorPos s + 1), t) ∧
      Emitted s ps 1 t := by
  have hmid : MidBatch (s.setCursor ph i b) ps := .of_index h.batch hl h.notDone hi
  have hmore : ¬ 18 * ps.length ≤ cursorPos s + 1 := hpos ▸ Nat.not_le.mpr hmid.pos_lt
  exact ⟨y, _, hy ▸ h.getElem?_frameSeq hj hlt, by rw [hb, decide_eq_false hmore], fun _ => ⟨hmid, hpos, rfl⟩,
    fun hle => absurd hle hmore⟩

/-- One beat emits the symbol of `FRAMESEQ` at the cursor and moves the cursor one place on, in each phase
(41_pulse_encoder.md R117). -/
theorem beat_emits (h : MidBatch s ps) :
    ∃ y t, (frameSeq ps)[cursorPos s]? = some y ∧ beat s = .ok (y, decide (18 * ps.length ≤ cursorPos s + 1), t) ∧
      Emitted s ps 1 t := by
  have hp := h.readBatch
  have hi := h.index_lt
  obtain ⟨hbit, hzero⟩ := h.legal
  cases hph : s.encPhase with
  | start =>
    have hpos := cursorPos_start hph
    exact h.emits_of_setCursor (beat_start hp hph) (j := 0) hpos (by decide) rfl (by simp [CursorLegal]) hi
      (by rw [hpos, cursorPos_word rfl]; simp)
  | word =>
    have hpos := cursorPos_word hph
    have hsym : frameSymbol ps[s.encIndex] (1 + s.encBit) = bitSym (wireBit ps[s.encIndex] s.encBit) := by
      rw [frameSymbol, if_neg (by omega), if_neg (by omega), Nat.add_sub_cancel_left]
    refine h.emits_of_setCursor (beat_word hp hph) hpos (by omega) hsym ?_ hi ?_
    · by_cases hb : s.encBit = 15 <;> simp [CursorLegal, hb]
      omega
    · by_cases hb : s.encBit = 15
      · rw [if_pos hb, if_pos hb, hpos, cursorPos_fin rfl, hb]
        rfl
      · rw [if_neg hb, if_neg hb, hpos, cursorPos_word rfl]
        simp only [State.setCursor_encIndex, State.setCursor_encBit]
        omega
  | fin =>
    have hpos := cursorPos_fin hph
    have hbit0 : s.encBit = 0 := hzero (by simp [hph])
    have hlen := h.batch.1
    by_cases hlast : s.encIndex + 1 = s.batchN
    · have hdone : 18 * ps.length ≤ cursorPos s + 1 := by omega
      refine ⟨endSymbol, s.completeBatch, h.getElem?_frameSeq (j := 17) hpos (by decide), ?_,
        fun hlt => absurd hdone (Nat.not_le.mpr hlt), fun _ => ⟨⟨rfl, rfl, hbit0⟩, rfl, hlen ▸ rfl⟩⟩
      rw [beat_last hp hph hlast, decide_eq_true hdone]
    · refine h.emits_of_setCursor (beat_next hp hph hlast) (j := 17) hpos (by decide) rfl (by simp [CursorLegal, hbit0])
        (by omega) ?_
      rw [hpos, cursorPos_start rfl, State.setCursor_encIndex]
      omega

/-! ### The closed form of DRIVE -/

/-- The symbols a DRIVE call returns: at most `cap` from the cursor on. -/
def upcoming (s : State) (ps : List Packet) (cap : Nat) : List Symbol := ((frameSeq ps).drop (cursorPos s)).take cap

/-- DRIVE's loop emits the next `cap` symbols of the sequence, or those that are left (41_pulse_encoder.md R117). -/
theorem driveLoop_emits (cap : Nat) (h : MidBatch s ps) :
    ∃ t, driveLoop cap s = .ok (upcoming s ps cap, decide (18 * ps.length ≤ cursorPos s + cap), t) ∧
      Emitted s ps cap t := by
  induction cap generalizing s with
  | zero => exact ⟨s, by simp [driveLoop, upcoming, h.pos_lt], .zero h⟩
  | succ cap ih =>
    obtain ⟨y, u, hy, hb, hu⟩ := beat_emits h
    have hdrop : (frameSeq ps).drop (cursorPos s) = y :: (frameSeq ps).drop (cursorPos s + 1) := by
      obtain ⟨hlt, rfl⟩ := List.getElem?_eq_some_iff.mp hy
      exact List.drop_eq_getElem_cons hlt
    rw [upcoming, hdrop, List.take_succ_cons]
    by_cases hlast : 18 * ps.length ≤ cursorPos s + 1
    · rw [decide_eq_true hlast] at hb
      have hnil : (frameSeq ps).drop (cursorPos s + 1) = [] := List.drop_of_length_le (by rwa [frameSeq_length])
      refine ⟨u, ?_, fun hlt => ?_, fun _ => hu.complete hlast⟩
      · rw [driveLoop_of_last hb, hnil, List.take_nil, decide_eq_true (by omega)]
      · omega
    · rw [decide_eq_false hlast] at hb
      obtain ⟨hmid, hpos, -⟩ := hu.running (by omega)
      obtain ⟨t, hl, ht⟩ := ih hmid
      rw [upcoming, hpos] at hl
      refine ⟨t, ?_, hu.succ (by omega) ht⟩
      rw [driveLoop_of_more hb hl, Nat.add_assoc, Nat.add_comm 1 cap]

/-- What a DRIVE call of the batch `ps` did from `s` to `t`. -/
structure Drove (s : State) (ps : List Packet) (cap : Nat) (t : State) : Prop where
  emitted : Emitted s ps cap t
  symbols : t.symbols = s.symbols ++ upcoming s ps cap
  txPending : t.txPending = s.txPending ++ upcoming s ps cap
  values : t.values = s.values ++ [.driven (upcoming s ps cap) (decide (18 * ps.length ≤ cursorPos s + cap))]
  frame : t = { s with
    symbols := t.symbols, txPending := t.txPending, values := t.values, encPhase := t.encPhase,
    encIndex := t.encIndex, encBit := t.encBit, encTotal := t.encTotal, encDone := t.encDone }

/-- DRIVE hands over what its loop emits. -/
theorem driveCall_drove (cap : Nat) (ho : outstanding s = true) (h : MidBatch s ps) :
    ∃ t, driveCall cap s = .next t ∧ Drove s ps cap t := by
  obtain ⟨u, hl, hu⟩ := driveLoop_emits cap h
  refine ⟨_, driveCall_of_loop ho h.notDone h.batchN_ne_zero hl, ?_⟩
  have hemitted := hu.handedOver (upcoming s ps cap)
    (.driven (upcoming s ps cap) (decide (18 * ps.length ≤ cursorPos s + cap)))
  obtain ⟨_, _, _, _, _, rfl⟩ := driveLoop_wrote hl
  exact ⟨hemitted, rfl, rfl, rfl, rfl⟩

theorem Drove.outstanding {cap : Nat} (h : Drove s ps cap t) (ho : outstanding s = true) : outstanding t = true :=
  (outstanding_congr (congrArg State.arbState h.frame)).trans ho

end

/-- Settles O25: a DRIVE call does what `Drove` says. -/
theorem driveClosedForm : Obligations.DriveClosedForm := by
  intro s ps cap ho hd hbatch hlegal hindex
  obtain ⟨t, hcall, ht⟩ := driveCall_drove cap ho (.of_index hbatch hlegal hd hindex)
  refine ⟨rfl, t, hcall, ht.symbols, ht.txPending, ht.values, fun hlt => ?_, ht.emitted.complete, ht.frame⟩
  obtain ⟨hmid, hpos, htotal⟩ := ht.emitted.running hlt
  exact ⟨hpos, hmid.legal, hmid.notDone, htotal⟩

/-! ### The resumability of DRIVE -/

theorem driveCalls_cons {cap : Nat} {rest : List Nat} {s t : State} (h : driveCall cap s = .next t) :
    driveCalls (cap :: rest) s = driveCalls rest t := by
  rw [driveCalls, exec_drive, h]

/-- From any position of the cursor, the calls up to the one that completes the batch return the rest of the sequence
(41_pulse_encoder.md R118). -/
theorem driveCalls_complete {ps : List Packet} (caps : List Nat) (last : Nat) {s : State} (ho : outstanding s = true)
    (h : MidBatch s ps) (hlt : cursorPos s + caps.sum < 18 * ps.length)
    (hle : 18 * ps.length ≤ cursorPos s + caps.sum + last) :
    ∃ (t : State) (outs : List (List Symbol)),
      driveCalls (caps ++ [last]) s = .next t ∧
      outs.length = caps.length + 1 ∧ outs.flatten = (frameSeq ps).drop (cursorPos s) ∧
      t.values = s.values ++ List.zipWith Value.driven outs (List.replicate caps.length false ++ [true]) ∧
      t.symbols = s.symbols ++ (frameSeq ps).drop (cursorPos s) ∧
      t.encTotal = s.encTotal + BitVec.ofNat 32 ps.length ∧ AtStart t ∧ t.encDone = true := by
  induction caps generalizing s with
  | nil =>
    rw [List.sum_nil, Nat.add_zero] at hle
    obtain ⟨t, hcall, ht⟩ := driveCall_drove last ho h
    have hall : upcoming s ps last = (frameSeq ps).drop (cursorPos s) :=
      List.take_of_length_le (by rw [List.length_drop, frameSeq_length]; omega)
    have hvalues := ht.values
    have hsymbols := ht.symbols
    rw [hall, decide_eq_true hle] at hvalues
    rw [hall] at hsymbols
    obtain ⟨hstart, hdone, htotal⟩ := ht.emitted.complete hle
    exact ⟨t, [(frameSeq ps).drop (cursorPos s)], driveCalls_cons hcall, rfl, by simp, hvalues, hsymbols, htotal,
      hstart, hdone⟩
  | cons cap caps ih =>
    rw [List.sum_cons] at hlt hle
    obtain ⟨u, hcall, hu⟩ := driveCall_drove cap ho h
    obtain ⟨hmid, hpos, htotal⟩ := hu.emitted.running (by omega)
    obtain ⟨t, outs, hcalls, hlen, hflat, hvalues, hsymbols, htotal', hend⟩ :=
      ih (hu.outstanding ho) hmid (by omega) (by omega)
    have hsplit : upcoming s ps cap ++ (frameSeq ps).drop (cursorPos u) = (frameSeq ps).drop (cursorPos s) := by
      rw [hpos, ← List.drop_drop, upcoming, List.take_append_drop]
    rw [hu.values, decide_eq_false (by omega), List.append_assoc] at hvalues
    rw [hu.symbols, List.append_assoc, hsplit] at hsymbols
    rw [htotal] at htotal'
    exact ⟨t, upcoming s ps cap :: outs, (driveCalls_cons hcall).trans hcalls, by rw [List.length_cons, hlen]; rfl,
      by rw [List.flatten_cons, hflat, hsplit], hvalues, hsymbols, htotal', hend⟩

/-- Settles O27: the calls from Start/0 return the whole sequence. -/
theorem driveResumability : Obligations.DriveResumability := by
  intro s ps caps last ho hd hstart hbatch hne hlt hle
  have hpos : cursorPos s = 0 := by rw [cursorPos_start hstart.1, hstart.2.1]
  have hcalls := driveCalls_complete caps last ho (.of_atStart hbatch hstart hd hne)
  rw [hpos, Nat.zero_add, List.drop_zero] at hcalls
  exact hcalls hlt hle

end Sys2Proof.Proofs.PulseEncoder
end

section
/-! PROOFS. The family 42_pulse_decoder.md. The scan of a capture has two cases, said once for symbols: `StartsFrame` holds and
a frame is taken, or the symbol is skipped. A frame's value is read off bit by bit from the data symbols (`dataPacket_getLsbD`).
The encoder's frame of `v` is the natural frame of `SWAPBYTES(v)`, so the loopback is the round trip of the exchanged value. -/

namespace Sys2Proof.Proofs.PulseDecoder

open Sys2Proof Sys2Proof.Machine Sys2Proof.Safety
open Sys2Proof.Proofs.PacketChecksum

/-! ### What ISSTART, CLASSIFY and DECODE return -/

section
variable (s : State)

theorem exec_isStart (y : Symbol) : exec (.isStart y) s = .next (s.returns (.verdict (isStartSpace y.space.toNat))) := rfl

theorem exec_classify (y : Symbol) : exec (.classify y) s = .next (s.returns (.bit (classifySpace y.space.toNat))) := rfl

theorem exec_decode (capture : List Symbol) : exec (.decode capture) s =
    .next (s.deliver (decodeCapture capture) (invalidFrames (decodeCapture capture))) := rfl

end

theorem isStartSpace_eq_decide (x : Nat) : isStartSpace x = decide (800 ≤ x ∧ x ≤ 1100) := (Bool.decide_and _ _).symm

/-- Settles O31: the window of the model is a conjunction of two comparisons. -/
theorem classificationResults : Obligations.ClassificationResults := by
  intro y s
  rw [← isStartSpace_eq_decide]
  exact ⟨exec_isStart s y, exec_classify s y⟩

/-! ### The value of a frame -/

theorem getLsbD_shiftIn (v : Packet) (b : Bool) {i : Nat} (hi : i < 16) :
    (v <<< 1 ||| if b then 1 else 0).getLsbD i = if i = 0 then b else v.getLsbD (i - 1) := by
  cases i with
  | zero => cases b <;> simp
  | succ i => cases b <;> simp [hi, BitVec.getLsbD_eq_getElem (show i < 16 by omega)]

theorem assembleBits_append_singleton (l : List Nat) (x : Nat) :
    assembleBits (l ++ [x]) = assembleBits l <<< 1 ||| if classifySpace x then 1 else 0 :=
  List.foldl_append

/-- Bit `i` is the class of the space that stands `i` places before the last one, and 0 where there is none. -/
theorem assembleBits_getLsbD (l : List Nat) {i : Nat} (hi : i < 16) :
    (assembleBits l).getLsbD i = l.reverse[i]?.any classifySpace := by
  induction l using List.reverseRecOn generalizing i with
  | nil => simp [assembleBits]
  | append_singleton l x ih =>
    rw [assembleBits_append_singleton, getLsbD_shiftIn _ _ hi, List.reverse_concat]
    cases i with
    | zero => rfl
    | succ i => simpa using ih (by omega)

/-- The value of a frame whose start marker stands before `rest` (42_pulse_decoder.md R144). -/
def dataPacket (rest : List Symbol) : Packet := assembleBits ((rest.take 16).map fun s => s.space.toNat)

/-- The first data symbol gives bit 15. -/
theorem dataPacket_getLsbD {rest : List Symbol} (hl : 16 ≤ rest.length) {j : Nat} (hj : j < 16) {z : Symbol}
    (hz : rest[j]? = some z) : (dataPacket rest).getLsbD (15 - j) = classifySpace z.space.toNat := by
  have hlen : ((rest.take 16).map fun s => s.space.toNat).length = 16 := by simpa using hl
  have hindex : 16 - 1 - (15 - j) = j := by omega
  rw [dataPacket, assembleBits_getLsbD _ (by omega), List.getElem?_reverse (by omega), hlen, hindex, List.getElem?_map,
    List.getElem?_take_of_lt hj, hz]
  rfl

/-! ### The scan of a capture -/

/-- A start marker with 16 symbols after it (42_pulse_decoder.md R144). -/
def StartsFrame (y : Symbol) (rest : List Symbol) : Prop :=
  800 ≤ y.space.toNat ∧ y.space.toNat ≤ 1100 ∧ 16 ≤ rest.length

section
variable {y : Symbol} {rest : List Symbol}

theorem startsFrame_iff : StartsFrame y rest ↔ isStartSpace y.space.toNat = true ∧ 16 ≤ rest.length := by
  rw [isStartSpace_eq_decide, decide_eq_true_iff, and_assoc, StartsFrame]

@[simp] theorem decodeCapture_nil : decodeCapture [] = [] := rfl

theorem decodeCapture_cons_of_startsFrame (h : StartsFrame y rest) : decodeCapture (y :: rest) =
    ⟨dataPacket rest, validPacket (dataPacket rest)⟩ :: decodeCapture (rest.drop 16) := by
  obtain ⟨hstart, hl⟩ := startsFrame_iff.mp h
  rw [decodeCapture, List.map_cons, scanSpaces_frame hstart (by simpa using hl), ← List.map_take, ← List.map_drop]
  rfl

theorem decodeCapture_cons_of_not_startsFrame (h : ¬ StartsFrame y rest) :
    decodeCapture (y :: rest) = decodeCapture rest := by
  rw [startsFrame_iff, not_and_or, Bool.not_eq_true, Nat.not_le] at h
  exact scanSpaces_other (by simpa using h)

end

/-- Settles O32: the two cases of the scan, and the bits of the value that the first one yields. -/
theorem decodeScan : Obligations.DecodeScan :=
  ⟨fun capture s => exec_decode s capture, decodeCapture_nil, fun _ rest =>
    ⟨fun h@⟨_, _, hl⟩ =>
        ⟨dataPacket rest, decodeCapture_cons_of_startsFrame h, fun _ _ hj hz => dataPacket_getLsbD hl hj hz⟩,
      decodeCapture_cons_of_not_startsFrame⟩⟩

/-! ### Properties of the scan -/

/-- Marks are never examined (42_pulse_decoder.md R145 (e)). -/
theorem decodeCapture_congr {c c' : List Symbol} (h : c.map Symbol.space = c'.map Symbol.space) :
    decodeCapture c = decodeCapture c' := by
  have hnat := congrArg (List.map BitVec.toNat) h
  rw [List.map_map, List.map_map] at hnat
  exact congrArg (scanSpaces 0) hnat

/-- Symbols outside the start window before a capture change nothing (42_pulse_decoder.md R146). -/
theorem decodeCapture_append_of_noise {noise : List Symbol} (c : List Symbol)
    (h : ∀ y ∈ noise, isStartSpace y.space.toNat = false) : decodeCapture (noise ++ c) = decodeCapture c := by
  induction noise with
  | nil => rfl
  | cons y noise ih =>
    obtain ⟨hy, hnoise⟩ := List.forall_mem_cons.mp h
    have hskip : ¬ StartsFrame y (noise ++ c) := by simp [startsFrame_iff, hy]
    rw [List.cons_append, decodeCapture_cons_of_not_startsFrame hskip, ih hnoise]

/-- Every frame consumes 17 symbols of its own. -/
theorem length_decodeCapture_mul_le (c : List Symbol) : (decodeCapture c).length * 17 ≤ c.length := by
  match c with
  | [] => simp
  | y :: rest =>
    by_cases h : StartsFrame y rest
    · have hrest := length_decodeCapture_mul_le (rest.drop 16)
      rw [List.length_drop] at hrest
      rw [decodeCapture_cons_of_startsFrame h, List.length_cons, List.length_cons]
      obtain ⟨-, -, hl⟩ := h
      omega
    · have hrest := length_decodeCapture_mul_le rest
      rw [decodeCapture_cons_of_not_startsFrame h, List.length_cons]
      omega
termination_by c.length

theorem length_decodeCapture_le (c : List Symbol) : (decodeCapture c).length ≤ c.length / 17 :=
  (Nat.le_div_iff_mul_le (by decide)).mpr (length_decodeCapture_mul_le c)

theorem decodeCapture_eq_nil {c : List Symbol} (h : c.length ≤ 16) : decodeCapture c = [] := by
  have hle := length_decodeCapture_mul_le c
  exact List.eq_nil_of_length_eq_zero (by omega)

/-- Settles O35: at most 16 symbols give nothing because every frame consumes 17. -/
theorem decodeScanProperties : Obligations.DecodeScanProperties :=
  ⟨fun _ _ => decodeCapture_congr, fun _ c => decodeCapture_append_of_noise c, fun _ => decodeCapture_eq_nil,
    length_decodeCapture_le⟩

/-! ### The round trips -/

/-- The threshold separates the two bit-symbols (30_encoding.md R66, R67). -/
theorem classifySpace_bitSym (b : Bool) : classifySpace (bitSym b).space.toNat = b := by
  cases b <;> decide

/-- The data symbols of `NAT(v)` (42_pulse_decoder.md R147). -/
def naturalBits (v : Packet) : List Symbol := (List.range 16).map fun i => bitSym (v.getLsbD (15 - i))

theorem naturalFrame_eq (v : Packet) : naturalFrame v = startSymbol :: (naturalBits v ++ [endSymbol]) := rfl

theorem naturalBits_length (v : Packet) : (naturalBits v).length = 16 := by simp [naturalBits]

theorem naturalBits_getElem? (v : Packet) {j : Nat} (hj : j < 16) :
    (naturalBits v)[j]? = some (bitSym (v.getLsbD (15 - j))) := by
  simp [naturalBits, hj]

theorem dataPacket_naturalBits (v : Packet) (tail : List Symbol) : dataPacket (naturalBits v ++ tail) = v := by
  apply BitVec.eq_of_getLsbD_eq
  intro i hi
  have hindex : 15 - (15 - i) = i := by omega
  have hdata : (naturalBits v ++ tail)[15 - i]? = some (bitSym (v.getLsbD i)) := by
    rw [List.getElem?_append_left (by rw [naturalBits_length]; omega), naturalBits_getElem? v (by omega), hindex]
  have hbit := dataPacket_getLsbD (by simp [naturalBits_length]) (by omega) hdata
  rwa [hindex, classifySpace_bitSym] at hbit

theorem decodeCapture_naturalFrame (v : Packet) : decodeCapture (naturalFrame v) = [⟨v, validPacket v⟩] := by
  have hstart : StartsFrame startSymbol (naturalBits v ++ [endSymbol]) :=
    ⟨by decide, by decide, by simp [naturalBits_length]⟩
  have hend : decodeCapture ((naturalBits v ++ [endSymbol]).drop 16) = [] :=
    decodeCapture_eq_nil (by simp [naturalBits_length])
  rw [naturalFrame_eq, decodeCapture_cons_of_startsFrame hstart, dataPacket_naturalBits, hend]

/-- The wire order of `v` is the natural order of the byte-exchanged value (42_pulse_decoder.md R148). -/
theorem frameOf_eq_naturalFrame (v : Packet) : frameOf v = naturalFrame (swapBytes v) := rfl

/-- Settles O33: the start marker takes the 16 bit-symbols, and End alone yields nothing. -/
theorem decodeNaturalRoundTrip : Obligations.DecodeNaturalRoundTrip := decodeCapture_naturalFrame

/-- Settles O34: the round trip of the exchanged value, whose verdict is that of `v`. -/
theorem decodeLoopback : Obligations.DecodeLoopback := by
  intro v
  rw [frameOf_eq_naturalFrame, decodeCapture_naturalFrame, validPacket_swapBytes]

end Sys2Proof.Proofs.PulseDecoder
end

section
/-! PROOFS. The family 43_commands.md, part one: what an accepted command does. An operation issues its command; with nothing
in front of it and the queue free, the command takes its effect at once (R160). -/

namespace Sys2Proof.Proofs.Commands

open Sys2Proof Sys2Proof.Machine Sys2Proof.Safety
open Sys2Proof.Proofs.QueueMemory

/-! ### The operations and their payloads -/

/-- A payload of FLUSH is ignored (43_commands.md R165). -/
theorem exec_flush (payload : List Byte) (s : State) : exec (.flush payload) s = issueCommand .flush s := rfl

theorem exec_heldKey_of_length_ne (s : State) {payload : List Byte} (h : payload.length ≠ 1) :
    exec (.heldKey payload) s = .refused .heldKeyLength :=
  match payload, h with
  | [], _ => rfl
  | [_], h => absurd rfl h
  | _ :: _ :: _, _ => rfl

theorem exec_setChan_of_length_ne (s : State) {payload : List Byte} (h : payload.length ≠ 1) :
    exec (.setChan payload) s = .refused .setChanLength :=
  match payload, h with
  | [], _ => rfl
  | [_], h => absurd rfl h
  | _ :: _ :: _, _ => rfl

/-- Settles O38: HELDKEY is acceptable in every state, so nothing but a waiting command keeps it back. -/
theorem heldKeyResult : Obligations.HeldKeyResult :=
  ⟨fun b s hp => (exec_commandInstr (.heldKey b) s).trans (issueCommand_accepted hp rfl),
    fun _ s h => exec_heldKey_of_length_ne s h⟩

/-- Settles O39: as for HELDKEY, and the effect sets the channel alone. -/
theorem setChanResult : Obligations.SetChanResult :=
  ⟨fun b s hp => (exec_commandInstr (.setChan b) s).trans (issueCommand_accepted hp rfl),
    fun _ s h => exec_setChan_of_length_ne s h⟩

/-! ### FLUSH and APPEND with the queue free -/

/-- With nothing waiting and the queue free, an APPEND or FLUSH takes its effect at once. -/
theorem queueCommand_accepted {c : Command} {s : State} (hc : c = .flush ∨ ∃ payload, c = .append payload)
    (hp : s.port = []) (hl : s.qLock = false) : issueCommand c s = acceptCommand c s :=
  issueCommand_accepted hp (by simp [acceptable_queueCommand hc, hl])

theorem exec_flush_accepted {s : State} (payload : List Byte) (hp : s.port = []) (hl : s.qLock = false) :
    exec (.flush payload) s = .next (flushCommand s) :=
  (exec_flush payload s).trans (queueCommand_accepted (.inl rfl) hp hl)

theorem exec_append_accepted {s : State} (payload : List Byte) (hp : s.port = []) (hl : s.qLock = false) :
    exec (.append payload) s = appendCommand payload s :=
  (exec_commandInstr (.append payload) s).trans (queueCommand_accepted (.inr ⟨payload, rfl⟩) hp hl)

/-- Settles O37: the two cases of an accepted FLUSH. -/
theorem flushResult : Obligations.FlushResult := by
  intro payload s hp hl
  rw [exec_flush_accepted payload hp hl]
  rcases flushCommand_cases s with ⟨hq, hf⟩ | ⟨hq, hf⟩
  · exact ⟨fun _ => congrArg Host.Outcome.next hf, fun hempty => absurd hempty hq⟩
  · exact ⟨fun hne => absurd hq hne, fun _ => congrArg Host.Outcome.next hf⟩

/-! ### The units of an APPEND payload (20_memory.md R44, R47) -/

theorem payloadUnits_length : ∀ payload : List Byte, (payloadUnits payload).length = payload.length / 2
  | [] => rfl
  | [_] => by simp [payloadUnits]
  | _ :: _ :: rest => by simp only [payloadUnits, List.length_cons, payloadUnits_length rest]; omega

theorem payloadUnits_getElem? {payload : List Byte} {j : Nat} {lo hi : Byte} (hlo : payload[2 * j]? = some lo)
    (hhi : payload[2 * j + 1]? = some hi) : (payloadUnits payload)[j]? = some (hi ++ lo) := by
  induction j generalizing payload with
  | zero =>
    match payload with
    | [] => simp at hlo
    | [_] => simp at hhi
    | lo' :: hi' :: rest =>
      obtain rfl : lo' = lo := Option.some.inj hlo
      obtain rfl : hi' = hi := Option.some.inj hhi
      simp [payloadUnits]
  | succ j ih =>
    match payload with
    | [] => simp at hlo
    | [_] => simp at hhi
    | _ :: _ :: rest => exact ih (payload := rest) hlo hhi

/-! ### The effect of APPEND -/

/-- The units that fit end below entry 128, so no write faults. -/
theorem appendCommand_answers {s : State} (payload : List Byte) (hq : s.qCount ≤ 128) :
    ∃ t, appendCommand payload s = .next t := by
  have hfit : ((payloadUnits payload).take (128 - s.qCount)).length ≤ 128 - s.qCount := List.length_take_le _ _
  obtain ⟨m, hm⟩ := writeEntries_ok s.qMem s.qCount ((payloadUnits payload).take (128 - s.qCount)) (by omega)
  simp [appendCommand, Config.queueCapacity, hm]

/-- Settles O36: an accepted APPEND is answered and does what `appendCommand_cases` says; the units stored are the first `n`
of the payload's, and what they do to the memory is `writeEntries_cases`. -/
theorem appendResult : Obligations.AppendResult := by
  intro payload s hp hl hq
  obtain ⟨t, ht⟩ := appendCommand_answers payload hq
  refine ⟨t, (exec_append_accepted payload hp hl).trans ht, ?_⟩
  obtain ⟨m, hm, rfl⟩ := appendCommand_cases ht
  obtain ⟨hread, hframe, -⟩ := writeEntries_cases hm
  have hstored : ((payloadUnits payload).take (128 - s.qCount)).length = min (payload.length / 2) (128 - s.qCount) := by
    rw [List.length_take, payloadUnits_length, Nat.min_comm]
  refine ⟨congrArg (s.qCount + ·) hstored, fun j lo hi hj hlo hhi => ?units, hframe, ?dropped, ?raised, rfl⟩
  case units =>
    have hunit : ((payloadUnits payload).take (128 - s.qCount))[j]? = some (hi ++ lo) := by
      rw [List.getElem?_take_of_lt (by omega), payloadUnits_getElem? hlo hhi]
    obtain ⟨hindex, hvalue⟩ := List.getElem?_eq_some_iff.mp hunit
    exact hvalue ▸ hread j hindex
  case dropped => simp only [payloadUnits_length]
  case raised => exact (Bool.or_comm _ _).trans (Bool.if_true_left _ _).symm

end Sys2Proof.Proofs.Commands
end

section
/-! PROOFS. The family 43_commands.md, part two: commands that wait at the port (R160). A command that may not be accepted goes
behind those that wait, and the event `accept` gives the oldest one the effect it has with nothing in front of it. -/

namespace Sys2Proof.Proofs.Commands

open Sys2Proof Sys2Proof.Machine Sys2Proof.Safety
open Sys2Proof.Proofs.QueueMemory

/-! ### Waiting -/

theorem issueCommand_waits {c : Command} {s : State} (h : s.port ≠ [] ∨ acceptable c s = false) :
    issueCommand c s = .next (s.setPort (s.port ++ [c])) := by
  rcases h with hp | ha
  · simp [issueCommand, hp]
  · simp [issueCommand, ha]

/-- An APPEND or FLUSH waits on the lock of the queue, or behind a command that waits. -/
theorem queueCommand_waits {c : Command} {s : State} (hc : c = .flush ∨ ∃ payload, c = .append payload)
    (h : s.qLock = true ∨ s.port ≠ []) : issueCommand c s = .next (s.setPort (s.port ++ [c])) :=
  issueCommand_waits (h.symm.imp_right fun hl => by simp [acceptable_queueCommand hc, hl])

/-- Settles O40: APPEND and FLUSH by `queueCommand_waits`, HELDKEY and SETCHAN only behind a command that waits. -/
theorem commandsWaitAtThePort : Obligations.CommandsWaitAtThePort := by
  refine fun s => ⟨fun h => ⟨fun payload => ?append, fun payload => ?flush⟩, fun hp b => ⟨?heldKey, ?setChan⟩⟩
  case append => exact (exec_commandInstr (.append payload) s).trans (queueCommand_waits (.inr ⟨payload, rfl⟩) h)
  case flush => exact (exec_flush payload s).trans (queueCommand_waits (.inl rfl) h)
  case heldKey => exact (exec_commandInstr (.heldKey b) s).trans (issueCommand_waits (.inl hp))
  case setChan => exact (exec_commandInstr (.setChan b) s).trans (issueCommand_waits (.inl hp))

/-! ### The oldest waiting command -/

theorem step_of_accept {s : State} {l : List Event} (h : s.inbox = .accept :: l) :
    step s = acceptWaiting (s.setInbox l) := by
  simp [step, h]

theorem acceptWaiting_of_acceptable {s : State} {c : Command} {rest : List Command} (hp : s.port = c :: rest)
    (ha : acceptable c s = true) :
    acceptWaiting s = mapNext (·.setPort rest) (exec (commandInstr c) (s.setPort [])) := by
  simp [acceptWaiting, hp, ha, ← acceptCommand_eq_exec]

theorem acceptWaiting_of_blocked {s : State} {c : Command} {rest : List Command} (hp : s.port = c :: rest)
    (hblocked : acceptable c s = false) : acceptWaiting s = .next s := by
  simp [acceptWaiting, hp, hblocked]

/-- Settles O7: the event is taken from the inbox, which changes neither the port nor what may be accepted. -/
theorem waitingCommandIsAccepted : Obligations.WaitingCommandIsAccepted := by
  intro s c rest l hin hp
  rw [step_of_accept hin]
  exact ⟨fun ha => acceptWaiting_of_acceptable (s := s.setInbox l) hp (by simpa using ha),
    fun hblocked => acceptWaiting_of_blocked (s := s.setInbox l) hp (by simpa using hblocked)⟩

end Sys2Proof.Proofs.Commands
end

section
/-! PROOFS. The family 44_arbiter.md, part one: the steps of the arbiter. First what a transmission result does (R194): in each
state with a transmission it is that state's completion (R185, R187, R191), elsewhere it is refused. Then ARB_CYCLE (R182),
ARB_WAIT (R188) with the begin of a flush (R190), and TRANSMIT's begin (R194, R195). -/

namespace Sys2Proof.Proofs.Arbiter

open Sys2Proof Sys2Proof.Machine Sys2Proof.Safety
open Sys2Proof.Proofs.PulseEncoder

section
variable {s : State} {r : Token}

/-! ### A transmission result -/

/-- "r = done only if enc_done = 1" (44_arbiter.md R194). -/
theorem resultAllowed_iff : resultAllowed r s = true ↔ (r = .done → s.encDone = true) := by
  cases r <;> simp [resultAllowed]

theorem resultAllowed_done_eq_false (hd : s.encDone = false) : resultAllowed .done s = false := by
  simp [resultAllowed, hd]

/-- With `done` every waiting symbol is carried, with any other result none (R194). -/
theorem settleLine_eq_ite (s : State) (r : Token) : s.settleLine r =
    { s with line := (if r = .done then s.line ++ waveform s.txPending else s.line), txPending := [] } := by
  cases r <;> rfl

theorem exec_resultInstr (r : Token) (s : State) : exec (resultInstr r) s = endTransmission r s := by
  cases r <;> rfl

theorem exec_transmit_finish (r : Token) (s : State) : exec (.transmit (.finish r)) s = endTransmission r s := rfl

theorem endTransmission_of_txHeld (r : Token) (ha : s.arbState = .txHeld) : endTransmission r s = heldEnd r s := by
  simp [endTransmission, ha]

theorem endTransmission_of_txStop (r : Token) (ha : s.arbState = .txStop) : endTransmission r s = stopEnd r s := by
  simp [endTransmission, ha]

theorem endTransmission_of_txFlush (r : Token) (ha : s.arbState = .txFlush) : endTransmission r s = flushEnd r s := by
  simp [endTransmission, ha]

theorem outstanding_eq_false_iff : outstanding s = false ↔ s.arbState = .cycle ∨ s.arbState = .wait := by
  unfold outstanding
  cases s.arbState <;> simp

theorem endTransmission_of_idle (r : Token) (ho : outstanding s = false) :
    endTransmission r s = .refused .noTransmission := by
  rcases outstanding_eq_false_iff.mp ho with ha | ha <;> simp [endTransmission, ha]

/-! ### The three completions -/

theorem heldEnd_allowed (ha : s.arbState = .txHeld) (hr : r = .done → s.encDone = true) :
    heldEnd r s = .next (((s.settleLine r).setStopSent false).setArb .cycle) :=
  (if_pos ha).trans (if_pos (resultAllowed_iff.mpr hr))

theorem stopEnd_allowed (ha : s.arbState = .txStop) (hr : r = .done → s.encDone = true) :
    stopEnd r s = .next (((s.settleLine r).setStopSent true).setArb .cycle) :=
  (if_pos ha).trans (if_pos (resultAllowed_iff.mpr hr))

theorem flushEnd_allowed (ha : s.arbState = .txFlush) (hr : r = .done → s.encDone = true) :
    flushEnd r s = .next (((((s.settleLine r).notify r).setQueue s.qMem 0).setLock false).setArb .cycle) :=
  (if_pos ha).trans (if_pos (resultAllowed_iff.mpr hr))

theorem heldEnd_done_early (ha : s.arbState = .txHeld) (hd : s.encDone = false) :
    heldEnd .done s = .refused .doneBeforeEncoder := by
  simp [heldEnd, ha, resultAllowed_done_eq_false hd]

theorem stopEnd_done_early (ha : s.arbState = .txStop) (hd : s.encDone = false) :
    stopEnd .done s = .refused .doneBeforeEncoder := by
  simp [stopEnd, ha, resultAllowed_done_eq_false hd]

theorem flushEnd_done_early (ha : s.arbState = .txFlush) (hd : s.encDone = false) :
    flushEnd .done s = .refused .doneBeforeEncoder := by
  simp [flushEnd, ha, resultAllowed_done_eq_false hd]

theorem endTransmission_done_early (ho : outstanding s = true) (hd : s.encDone = false) :
    endTransmission .done s = .refused .doneBeforeEncoder := by
  rcases (outstanding_iff s).mp ho with ha | ha | ha
  · exact (endTransmission_of_txHeld _ ha).trans (heldEnd_done_early ha hd)
  · exact (endTransmission_of_txStop _ ha).trans (stopEnd_done_early ha hd)
  · exact (endTransmission_of_txFlush _ ha).trans (flushEnd_done_early ha hd)

end

/-- The four operations that present the result `r` to a transmission whose completion is `row` or `part`. -/
theorem exec_of_mem_completion {s : State} {r : Token} {i row part : Instr} {result : StepResult}
    (hi : i ∈ [row, part, resultInstr r, .transmit (.finish r)]) (hrow : exec row s = result)
    (hpart : exec part s = result) (hend : endTransmission r s = result) : exec i s = result := by
  simp only [List.mem_cons, List.not_mem_nil, or_false] at hi
  rcases hi with rfl | rfl | rfl | rfl
  · exact hrow
  · exact hpart
  · exact (exec_resultInstr r s).trans hend
  · exact (exec_transmit_finish r s).trans hend

/-- Settles O43: the four operations are `heldEnd`, which is answered. -/
theorem heldCompletionResult : Obligations.HeldCompletionResult := by
  intro s r i ha hr hi
  have hexec : exec i s = heldEnd r s := exec_of_mem_completion hi rfl rfl (endTransmission_of_txHeld r ha)
  rw [hexec, heldEnd_allowed ha hr, settleLine_eq_ite]
  rfl

/-- Settles O44: the four operations are `stopEnd`, which is answered. -/
theorem stopCompletionResult : Obligations.StopCompletionResult := by
  intro s r i ha hr hi
  have hexec : exec i s = stopEnd r s := exec_of_mem_completion hi rfl rfl (endTransmission_of_txStop r ha)
  rw [hexec, stopEnd_allowed ha hr, settleLine_eq_ite]
  rfl

/-- Settles O45: the four operations are `flushEnd`, which is answered. -/
theorem flushCompletionResult : Obligations.FlushCompletionResult := by
  intro s r i ha hr hi
  have hexec : exec i s = flushEnd r s := exec_of_mem_completion hi rfl rfl (endTransmission_of_txFlush r ha)
  rw [hexec, flushEnd_allowed ha hr, settleLine_eq_ite]
  rfl

/-- Settles O46: a result is `endTransmission`, or the completion of its state. -/
theorem resultRefusals : Obligations.ResultRefusals := by
  refine ⟨fun s r ho => ?_, fun s ho hd => ?_, fun s i a hi ha hd => ?_⟩
  · exact ⟨(exec_resultInstr r s).trans (endTransmission_of_idle r ho), endTransmission_of_idle r ho⟩
  · exact ⟨endTransmission_done_early ho hd, endTransmission_done_early ho hd⟩
  · simp only [List.mem_cons, Prod.mk.injEq, List.not_mem_nil, or_false] at hi
    rcases hi with ⟨rfl, rfl⟩ | ⟨rfl, rfl⟩ | ⟨rfl, rfl⟩ | ⟨rfl, rfl⟩ | ⟨rfl, rfl⟩ | ⟨rfl, rfl⟩
    · exact heldEnd_done_early ha hd
    · exact heldEnd_done_early ha hd
    · exact stopEnd_done_early ha hd
    · exact stopEnd_done_early ha hd
    · exact flushEnd_done_early ha hd
    · exact flushEnd_done_early ha hd

section
variable {s : State}

/-! ### ARB_CYCLE -/

theorem cycleStep_of_key (ha : s.arbState = .cycle) (hk : s.heldKey ≠ 0) :
    cycleStep s = .next (heldBegin s.heldKey s.channel s) :=
  (if_pos ha).trans (if_pos hk)

theorem cycleStep_of_stop_owed (ha : s.arbState = .cycle) (hk : s.heldKey = 0) (hs : s.stopSent = false) :
    cycleStep s = .next (stopBegin s.channel s) := by
  simp [cycleStep, ha, hk, hs]

theorem cycleStep_of_stop_sent (ha : s.arbState = .cycle) (hk : s.heldKey = 0) (hs : s.stopSent = true) :
    cycleStep s = .next (s.setArb .wait) := by
  simp [cycleStep, ha, hk, hs]

/-- Settles O42: the three branches of `cycleStep`; the begin rows are its first two. -/
theorem cycleStepResult : Obligations.CycleStepResult := by
  intro s ha
  refine ⟨rfl, fun hk => ?_, fun hk hs => ?_, cycleStep_of_stop_sent ha⟩
  · have hcycle := cycleStep_of_key ha hk
    exact ⟨hcycle, (if_pos ⟨ha, hk⟩).trans hcycle.symm⟩
  · have hcycle := cycleStep_of_stop_owed ha hk hs
    exact ⟨hcycle, (if_pos ⟨ha, hk, hs⟩).trans hcycle.symm⟩

/-! ### ARB_WAIT -/

theorem waitStep_of_flush (ha : s.arbState = .wait) (hf : s.wakeFlush = true) : waitStep s = flushBegin s.clearWakes :=
  (if_pos ha).trans (if_pos hf)

theorem waitStep_of_continue (ha : s.arbState = .wait) (hf : s.wakeFlush = false) (hc : s.wakeContinue = true) :
    waitStep s = .next (s.clearWakes.setArb .cycle) := by
  simp [waitStep, ha, hf, hc]

theorem waitStep_blocked (ha : s.arbState = .wait) (hf : s.wakeFlush = false) (hc : s.wakeContinue = false) :
    waitStep s = .next s := by
  simp [waitStep, ha, hf, hc]

theorem flushBegin_of_empty (hq : s.qCount = 0) : flushBegin s = .next (s.setArb .cycle) := if_pos hq

/-- Settles O47: the branches of `waitStep` that start no transmission. A cause that continue consumes leaves the flush cause
clear, as it was. -/
theorem waitStepResult : Obligations.WaitStepResult := by
  intro s ha
  refine ⟨rfl, waitStep_blocked ha, fun hf hc => ?_, fun hf hq => ?_⟩
  · have hclear : s.clearWakes = { s with wakeContinue := false } := by rw [State.clearWakes, ← hf]
    exact (waitStep_of_continue ha hf hc).trans (congrArg (fun t => (.next (t.setArb .cycle) : StepResult)) hclear)
  · exact (waitStep_of_flush ha hf).trans (flushBegin_of_empty (s := s.clearWakes) hq)

/-! ### The begin of a flush -/

/-- The state in which a flush has begun, with the queue memory `m` (44_arbiter.md R190). -/
def flushBegun (m : Memory) (s : State) : State :=
  (transmitBegin (((s.setLock true).setQueue m s.qCount).present .queue s.qCount)).setArb .txFlush

theorem flushBegin_of_rebuilt {m : Memory} (hq : s.qCount ≠ 0)
    (hm : rebuildEntries s.channel s.qCount 0 s.qMem = .ok m) : flushBegin s = .next (flushBegun m s) := by
  simp [flushBegin, hq, hm, flushBegun]

variable {es : List Packet}

theorem readEntry_ok_of_queueIs (h : QueueIs s es) {i : Nat} (hi : i < s.qCount) : ∃ p, readEntry s.qMem i = .ok p :=
  ⟨_, h.2 i (h.1.symm ▸ hi)⟩

/-- The rewrite of a flush puts `ENCODE(KEY(entry), channel)` in the place of every valid entry. -/
theorem queueIs_rebuilt {c : Channel} {m : Memory} {t : State} (h : QueueIs s es)
    (hm : rebuildEntries c s.qCount 0 s.qMem = .ok m) (htm : t.qMem = m) (htn : t.qCount = s.qCount) :
    QueueIs t (es.map fun p => encodePacket (keyField p) c) := by
  refine ⟨by rw [List.length_map, h.1, htn], fun i hi => ?_⟩
  rw [List.length_map] at hi
  obtain ⟨hentry, -, -⟩ := rebuildEntries_cases hm
  obtain ⟨p, hold, hnew⟩ := hentry i (Nat.zero_le i) (by rw [Nat.zero_add, ← h.1]; exact hi)
  obtain rfl : es[i] = p := Except.ok.inj ((h.2 i hi).symm.trans hold)
  rw [htm, List.getElem_map]
  exact hnew

/-- The whole queue presented is the batch (10_state.md R22). -/
theorem batchIs_of_queueIs (h : QueueIs s es) (hsrc : s.batchSrc = .queue) (hn : s.batchN = s.qCount) : BatchIs s es := by
  obtain ⟨hlen, hread⟩ := h
  refine ⟨hlen.trans hn.symm, fun i hi => ?_⟩
  rw [readBatch_queue hsrc (by omega)]
  exact hread i hi

/-- Settles O48: the entries can be read, so the rewrite is answered, and `rebuildEntries_cases` says what it leaves. -/
theorem flushBeginResult : Obligations.FlushBeginResult := by
  intro s es ha hf hqueue hne
  have hq : s.qCount ≠ 0 := by rw [← hqueue.1]; exact mt List.length_eq_zero_iff.mp hne
  obtain ⟨m, hm⟩ := rebuildEntries_ok s.channel s.qCount 0 s.qMem
    fun j _ hj => readEntry_ok_of_queueIs hqueue (by omega)
  have hwait : waitStep s = .next (flushBegun m s.clearWakes) :=
    (waitStep_of_flush ha hf).trans (flushBegin_of_rebuilt (s := s.clearWakes) hq hm)
  have hstart : flushStart s = waitStep s := (if_pos ⟨ha, hf⟩).trans (waitStep_of_flush ha hf).symm
  have hnew : QueueIs (flushBegun m s.clearWakes) (es.map fun p => encodePacket (keyField p) s.channel) :=
    queueIs_rebuilt hqueue hm rfl rfl
  obtain ⟨-, hbytes, -⟩ := rebuildEntries_cases hm
  exact ⟨hstart, hstart, _, hwait, hnew, batchIs_of_queueIs hnew rfl rfl,
    fun a hle => hbytes a (.inr (by rwa [Nat.zero_add])), rfl⟩

/-! ### TRANSMIT's begin -/

theorem exec_transmit_start (ho : outstanding s = false) : exec (.transmit .start) s = requestReset s := by
  simp [exec, execTransmit, ho]

/-- Settles O49: with none outstanding the begin is the request of ENC_RESET. -/
theorem transmitBeginResult : Obligations.TransmitBeginResult := by
  intro s
  refine ⟨fun hb => ?_, fun ho => if_pos ho, fun ho hb => ?_⟩
  · have ho : outstanding s = false := outstanding_of_begins ((beginsTransmission_iff s).mpr hb)
    exact (exec_transmit_start ho).trans (requestReset_of_beginEnabled hb)
  · exact (exec_transmit_start ho).trans (requestReset_refused hb)

/-! ### Steps that the state does not enable -/

theorem cycleStep_refused (ha : s.arbState ≠ .cycle) : cycleStep s = .refused .stepNotEnabled := if_neg ha

theorem waitStep_refused (ha : s.arbState ≠ .wait) : waitStep s = .refused .stepNotEnabled := if_neg ha

theorem heldStart_refused (h : s.arbState ≠ .cycle ∨ s.heldKey = 0) : heldStart s = .refused .stepNotEnabled :=
  if_neg fun ⟨ha, hk⟩ => h.elim (· ha) hk

theorem stopStart_refused (h : s.arbState ≠ .cycle ∨ s.heldKey ≠ 0 ∨ s.stopSent = true) :
    stopStart s = .refused .stepNotEnabled := by
  refine if_neg fun ⟨ha, hk, hs⟩ => ?_
  rcases h with h | h | h
  · exact h ha
  · exact h hk
  · simp [hs] at h

theorem flushStart_refused (h : s.arbState ≠ .wait ∨ s.wakeFlush = false) :
    flushStart s = .refused .stepNotEnabled := by
  refine if_neg fun ⟨ha, hf⟩ => ?_
  rcases h with h | h
  · exact h ha
  · simp [hf] at h

theorem heldEnd_refused (r : Token) (ha : s.arbState ≠ .txHeld) : heldEnd r s = .refused .stepNotEnabled := if_neg ha

theorem stopEnd_refused (r : Token) (ha : s.arbState ≠ .txStop) : stopEnd r s = .refused .stepNotEnabled := if_neg ha

theorem flushEnd_refused (r : Token) (ha : s.arbState ≠ .txFlush) : flushEnd r s = .refused .stepNotEnabled := if_neg ha

end

/-- Settles O50: each step is guarded by its state, and the begins by their condition too. -/
theorem stepsNotEnabledAreRefused : Obligations.StepsNotEnabledAreRefused := by
  refine ⟨fun s _ => ⟨fun hk => heldStart_refused (.inr hk), fun h => stopStart_refused (.inr h)⟩,
    fun s _ hf => flushStart_refused (.inr hf), fun s i a r hi ha => ?_⟩
  simp only [List.mem_cons, Prod.mk.injEq, List.not_mem_nil, or_false] at hi
  rcases hi with ⟨rfl, rfl⟩ | ⟨rfl, rfl⟩ | ⟨rfl, rfl⟩ | ⟨rfl, rfl⟩ | ⟨rfl, rfl⟩ | ⟨rfl, rfl⟩ | ⟨rfl, rfl⟩ | hend
  · exact cycleStep_refused ha
  · exact cycleStep_refused ha
  · exact heldStart_refused (.inl ha)
  · exact stopStart_refused (.inl ha)
  · exact waitStep_refused ha
  · exact waitStep_refused ha
  · exact flushStart_refused (.inl ha)
  · rcases hend with ⟨rfl, rfl⟩ | ⟨rfl, rfl⟩ | ⟨rfl, rfl⟩ | ⟨rfl, rfl⟩ | ⟨rfl, rfl⟩ | ⟨rfl, rfl⟩
    · exact heldEnd_refused r ha
    · exact heldEnd_refused r ha
    · exact stopEnd_refused r ha
    · exact stopEnd_refused r ha
    · exact flushEnd_refused r ha
    · exact flushEnd_refused r ha

end Sys2Proof.Proofs.Arbiter
end

section
/-! PROOFS. The family 44_arbiter.md, part two: the rules of the whole block. Every move either leaves the arbiter and its tokens
alone (`LeavesArbiter`) or is ARB_CYCLE, ARB_WAIT or the end of a transmission (`moved_arbiter`). The state graph (R181) and the
tokens (R199) follow by these four cases; that a held key starves the queue (R192) and that the stop pair is edge-triggered
(R189) are read off the graph and the write rights. -/

namespace Sys2Proof.Proofs.Arbiter

open Sys2Proof Sys2Proof.Machine Sys2Proof.Safety
open Sys2Proof.Proofs.BlockState Sys2Proof.Proofs.QueueMemory Sys2Proof.Proofs.Commands

/-- `arb_state` and the tokens are the same in both states. -/
structure LeavesArbiter (s t : State) : Prop where
  arbState : t.arbState = s.arbState := by rfl
  tokens : t.tokens = s.tokens := by rfl

section
variable {s t : State}

/-! ### The moves of the other agents -/

theorem leavesArbiter_driveCall {cap : Nat} (h : driveCall cap s = .next t) : LeavesArbiter s t := by
  obtain ⟨-, -, -, out, last, u, hl, rfl⟩ := driveCall_cases h
  obtain ⟨_, _, _, _, _, rfl⟩ := driveLoop_wrote hl
  exact {}

theorem leavesArbiter_playSymbol {y : Symbol} (h : playSymbol y s = .next t) : LeavesArbiter s t := by
  obtain ⟨rest, -, rfl⟩ := playSymbol_cases h
  exact {}

theorem leavesArbiter_acceptCommand {c : Command} (h : acceptCommand c s = .next t) : LeavesArbiter s t := by
  rcases acceptCommand_cases h with ⟨payload, -, h⟩ | ⟨-, rfl⟩ | ⟨b, -, rfl⟩ | ⟨b, -, rfl⟩
  · obtain ⟨m, -, rfl⟩ := appendCommand_cases h
    exact {}
  · rcases flushCommand_cases s with ⟨-, hf⟩ | ⟨-, hf⟩
    · rw [hf]; exact {}
    · rw [hf]; exact {}
  · exact {}
  · exact {}

theorem leavesArbiter_issueCommand {c : Command} (h : issueCommand c s = .next t) : LeavesArbiter s t := by
  rcases issueCommand_cases h with ⟨-, -, h⟩ | ⟨-, rfl⟩
  · exact leavesArbiter_acceptCommand h
  · exact {}

/-- What a move does to the arbiter. -/
theorem moved_arbiter (hm : Moved s t) :
    LeavesArbiter s t ∨ cycleStep s = .next t ∨ waitStep s = .next t ∨ ∃ r, endTransmission r s = .next t := by
  cases hm with
  | returned v ht => subst ht; exact .inl {}
  | delivered frames events ht => subst ht; exact .inl {}
  | raised d ht => subst ht; exact .inl {}
  | encoderReset _ ht => subst ht; exact .inl {}
  | played y h => exact .inl (leavesArbiter_playSymbol h)
  | drove cap h => exact .inl (leavesArbiter_driveCall h)
  | issued c h => exact .inl (leavesArbiter_issueCommand h)
  | heldEnded r h => exact .inr (.inr (.inr ⟨r, (endTransmission_of_txHeld r (heldEnd_cases h).1).trans h⟩))
  | stopEnded r h => exact .inr (.inr (.inr ⟨r, (endTransmission_of_txStop r (stopEnd_cases h).1).trans h⟩))
  | flushEnded r h => exact .inr (.inr (.inr ⟨r, (endTransmission_of_txFlush r (flushEnd_cases h).1).trans h⟩))
  | cycled h => exact .inr (.inl h)
  | waited h => exact .inr (.inr (.inl h))

/-- A transmission becomes outstanding only by a step of the arbiter in CYCLE or WAIT (44_arbiter.md R181). -/
theorem begins_of_moved (hos : outstanding s = false) (hot : outstanding t = true) (hm : Moved s t) :
    cycleStep s = .next t ∨ waitStep s = .next t := by
  rcases moved_arbiter hm with k | h | h | ⟨r, h⟩
  · simp [outstanding_congr k.arbState, hos] at hot
  · exact .inl h
  · exact .inr h
  · simp [endTransmission_of_idle r hos] at h

/-! ### The state after each step of the arbiter -/

@[simp] theorem heldBegin_arbState (k : Key) (c : Channel) (s : State) : (heldBegin k c s).arbState = .txHeld := rfl

@[simp] theorem stopBegin_arbState (c : Channel) (s : State) : (stopBegin c s).arbState = .txStop := rfl

/-- ARB_WAIT leaves `arb_state`, or takes one of the two transitions out of WAIT under its condition (R181, R188, R190). -/
theorem waitStep_arbState (h : waitStep s = .next t) : s.arbState = .wait ∧
    (t.arbState = .wait ∨ (t.arbState = .txFlush ∧ s.wakeFlush = true ∧ s.qCount ≠ 0) ∨
      (t.arbState = .cycle ∧ ((s.wakeFlush = false ∧ s.wakeContinue = true) ∨ (s.wakeFlush = true ∧ s.qCount = 0)))) := by
  obtain ⟨ha, ⟨hw, hf⟩ | ⟨hw, hc, rfl⟩ | ⟨-, -, rfl⟩⟩ := waitStep_cases h
  · rcases flushBegin_cases hf with ⟨hq, rfl⟩ | ⟨hq, m, -, rfl⟩
    · exact ⟨ha, .inr (.inr ⟨rfl, .inr ⟨hw, hq⟩⟩)⟩
    · exact ⟨ha, .inr (.inl ⟨rfl, hw, hq⟩)⟩
  · exact ⟨ha, .inr (.inr ⟨rfl, .inl ⟨hw, hc⟩⟩)⟩
  · exact ⟨ha, .inl ha⟩

/-- The end of a transmission leads to CYCLE (R185, R187, R191). -/
theorem endTransmission_arbState {r : Token} (h : endTransmission r s = .next t) :
    outstanding s = true ∧ t.arbState = .cycle := by
  rcases endTransmission_cases h with h | h | h
  · obtain ⟨ha, -, rfl⟩ := heldEnd_cases h
    exact ⟨by simp [outstanding, ha], rfl⟩
  · obtain ⟨ha, -, rfl⟩ := stopEnd_cases h
    exact ⟨by simp [outstanding, ha], rfl⟩
  · obtain ⟨ha, -, rfl⟩ := flushEnd_cases h
    exact ⟨by simp [outstanding, ha], rfl⟩

/-! ### The tokens -/

theorem cycleStep_tokens (h : cycleStep s = .next t) : t.tokens = s.tokens := by
  obtain ⟨-, ⟨-, rfl⟩ | ⟨-, -, rfl⟩ | ⟨-, -, rfl⟩⟩ := cycleStep_cases h <;> rfl

theorem waitStep_tokens (h : waitStep s = .next t) : t.tokens = s.tokens := by
  obtain ⟨-, ⟨-, hf⟩ | ⟨-, -, rfl⟩ | ⟨-, -, rfl⟩⟩ := waitStep_cases h
  · obtain ⟨-, rfl⟩ | ⟨-, m, -, rfl⟩ := flushBegin_cases hf <;> rfl
  · rfl
  · rfl

/-- The end of a transmission publishes its result where it completes a flush, and nothing elsewhere (R198). -/
theorem endTransmission_tokens {r : Token} (h : endTransmission r s = .next t) :
    t.tokens = (if s.arbState = .txFlush then s.tokens ++ [r] else s.tokens) := by
  rcases endTransmission_cases h with h | h | h
  · obtain ⟨ha, -, rfl⟩ := heldEnd_cases h
    simp [ha]
  · obtain ⟨ha, -, rfl⟩ := stopEnd_cases h
    simp [ha]
  · obtain ⟨ha, -, rfl⟩ := flushEnd_cases h
    simp [ha]

end

/-- Settles O51: a move of another agent stays; each step of the arbiter takes its transitions. -/
theorem arbiterStateGraph : Obligations.ArbiterStateGraph := by
  intro i s t h
  rcases moved_arbiter (exec_moved h) with k | h | h | ⟨r, h⟩
  · cases ha : s.arbState <;> simp [arbEdge, k.arbState, ha]
  · obtain ⟨ha, ⟨hk, rfl⟩ | ⟨hk, hs, rfl⟩ | ⟨hk, hs, rfl⟩⟩ := cycleStep_cases h
    · simpa [arbEdge, ha] using hk
    · simp [arbEdge, ha, hk, hs]
    · simp [arbEdge, ha, hk, hs]
  · obtain ⟨ha, ht | ⟨ht, hw, hq⟩ | ⟨ht, hcause⟩⟩ := waitStep_arbState h
    · simp [arbEdge, ha, ht]
    · simp [arbEdge, ha, ht, hw, hq]
    · simp [arbEdge, ha, ht, hcause]
  · obtain ⟨ho, ht⟩ := endTransmission_arbState h
    rcases (outstanding_iff s).mp ho with ha | ha | ha <;> simp [arbEdge, ha, ht]

/-- Settles O52: only the end of a transmission writes the tokens, and only in TX_FLUSH. -/
theorem tokensOnlyFromFlushCompletion : Obligations.TokensOnlyFromFlushCompletion := by
  intro i s t h
  rcases moved_arbiter (exec_moved h) with k | h | h | ⟨r, h⟩
  · refine ⟨fun ⟨ha, ht⟩ => ?_, fun _ => k.tokens⟩
    simp [k.arbState, ha] at ht
  · exact ⟨fun ⟨ha, _⟩ => by simp [(cycleStep_cases h).1] at ha, fun _ => cycleStep_tokens h⟩
  · exact ⟨fun ⟨ha, _⟩ => by simp [(waitStep_cases h).1] at ha, fun _ => waitStep_tokens h⟩
  · have htokens := endTransmission_tokens h
    obtain ⟨-, ht⟩ := endTransmission_arbState h
    exact ⟨fun ⟨ha, _⟩ => ⟨r, htokens.trans (if_pos ha)⟩, fun hnot => htokens.trans (if_neg fun ha => hnot ⟨ha, ht⟩)⟩

/-- APPEND never shrinks the queue (43_commands.md R162). -/
theorem qCount_le_of_append {payload : List Byte} {s t : State} (h : exec (.append payload) s = .next t) :
    s.qCount ≤ t.qCount := by
  rcases issueCommand_cases (c := .append payload) h with ⟨-, -, h⟩ | ⟨-, rfl⟩
  · obtain ⟨m, -, rfl⟩ := appendCommand_cases h
    exact Nat.le_add_right _ _
  · exact le_rfl

/-- Settles O57: of the four ways on from CYCLE, two need that no key is held; the flush cause is consumed only in WAIT, and the
count falls only by the completion of a flush. -/
theorem heldKeyStarvesTheQueue : Obligations.HeldKeyStarvesTheQueue := by
  intro i s t ha hk h
  obtain ⟨hedge, -, hstop, hwait, -, -⟩ := arbiterStateGraph i s t h
  have w := exec_writes h
  refine ⟨?_, fun hf => ?_, ?_⟩
  · simp only [arbEdge, ha, List.mem_cons, Prod.mk.injEq, reduceCtorEq, false_and, true_and, List.not_mem_nil,
      or_false] at hedge
    rcases hedge with hsame | hheld | hto | hto
    · exact .inl hsame.symm
    · exact .inr hheld
    · exact absurd (hstop ha hto).1 hk
    · exact absurd (hwait ha hto).1 hk
  · rcases w.wakeFlush with hsame | ⟨hset, -⟩ | ⟨hin, -⟩
    · exact hsame.trans hf
    · exact hset
    · simp [ha] at hin
  · rcases w.qCount with hsame | ⟨payload, rfl⟩ | ⟨hin, -⟩
    · exact hsame.ge
    · exact qCount_le_of_append h
    · simp [ha] at hin

/-- Settles O58: the only transition into TX_STOP comes from CYCLE, and the right to clear `stop_sent` is ARB_HELD
completion's. -/
theorem stopIsEdgeTriggered : Obligations.StopIsEdgeTriggered := by
  intro i s t h
  obtain ⟨hedge, -, hstop, -⟩ := arbiterStateGraph i s t h
  refine ⟨fun hs ht => ?_, fun hset hclear => ?_⟩
  · have ha : s.arbState = .cycle := by
      rcases hedge with hsame | hedge
      · exact absurd (hsame.trans ht) hs
      · simpa [ht] using hedge
    exact ⟨ha, hstop ha ht⟩
  · rcases (exec_writes h).stopSent with hsame | ⟨ha, ht, -⟩ | ⟨-, -, hsent⟩
    · simp [hsame, hset] at hclear
    · exact ⟨ha, ht⟩
    · simp [hsent] at hclear

/-! ### The block's own move -/

section
variable {s : State}

/-- The effect of a command is always answered, and leaves the port and the inbox: an APPEND stores only what fits. -/
theorem acceptCommand_answers (c : Command) (s : State) :
    ∃ t, acceptCommand c s = .next t ∧ t.port = s.port ∧ t.inbox = s.inbox := by
  cases c with
  | append payload =>
    have hanswer : ∃ t, appendCommand payload s = .next t := by
      by_cases hq : s.qCount ≤ 128
      · exact appendCommand_answers payload hq
      · have hfull : 128 - s.qCount = 0 := by omega
        simp [appendCommand, Config.queueCapacity, hfull, writeEntries]
    obtain ⟨t, ht⟩ := hanswer
    obtain ⟨_, -, rfl⟩ := appendCommand_cases ht
    exact ⟨_, ht, rfl, rfl⟩
  | flush =>
    rcases flushCommand_cases s with ⟨-, hf⟩ | ⟨-, hf⟩
    · exact ⟨_, congrArg Host.Outcome.next hf, rfl, rfl⟩
    · exact ⟨_, congrArg Host.Outcome.next hf, rfl, rfl⟩
  | heldKey b => exact ⟨_, rfl, rfl, rfl⟩
  | setChan b => exact ⟨_, rfl, rfl, rfl⟩

/-- No waiting command may be accepted: none waits, or the oldest is blocked (43_commands.md R160). -/
def PortBlocked (s : State) : Prop := ∀ c rest, s.port = c :: rest → acceptable c s = false

theorem step_of_portBlocked (hin : s.inbox = []) (hb : PortBlocked s) : step s = arbiterStep s := by
  rw [step_of_inbox_nil hin]
  cases hp : s.port with
  | nil => simp [autonomous, hp]
  | cons c rest => exact autonomous_of_blocked hp (hb c rest hp)

theorem arbiterStep_of_outstanding (ho : outstanding s = true) : arbiterStep s = exec .outTimeout s := by
  have hexec : exec .outTimeout s = endTransmission .timeout s := exec_resultInstr .timeout s
  rw [hexec]
  rcases (outstanding_iff s).mp ho with ha | ha | ha <;> simp [arbiterStep, ha]

theorem stepsFrom_succ {n : Nat} {t : State} (h : step s = .next t) : stepsFrom (n + 1) s = stepsFrom n t := by
  rw [stepsFrom, h]

/-- The timer ends the transmission in the next step, when no waiting command may be accepted (44_arbiter.md R194,
60_exceptions.md R240). -/
theorem step_ends_of_portBlocked (hin : s.inbox = []) (hb : PortBlocked s) (ho : outstanding s = true) :
    ∃ t, stepsFrom 1 s = .next t ∧ outstanding t = false := by
  obtain ⟨t, ht⟩ := endTransmission_timeout ho
  have hstep : step s = .next t :=
    (step_of_portBlocked hin hb).trans ((arbiterStep_of_outstanding ho).trans ht)
  exact ⟨t, stepsFrom_succ hstep, by simp [outstanding, (endTransmission_arbState ht).2]⟩

/-- By induction on the waiting commands: each accepted one leaves the transmission outstanding and the port shorter, and the
first that is blocked, or none, lets the timer end it (R194). -/
theorem transmission_ends {p : List Command} (hin : s.inbox = []) (hp : s.port = p) (ho : outstanding s = true) :
    ∃ n t, n ≤ p.length + 1 ∧ stepsFrom n s = .next t ∧ outstanding t = false := by
  induction p generalizing s with
  | nil =>
    obtain ⟨t, ht, hend⟩ := step_ends_of_portBlocked hin (fun c rest h => by simp [hp] at h) ho
    exact ⟨1, t, by simp, ht, hend⟩
  | cons c rest ih =>
    cases ha : acceptable c s with
    | false =>
      have hb : PortBlocked s := fun c' rest' h => by
        obtain ⟨rfl, -⟩ := List.cons_eq_cons.mp (hp.symm.trans h)
        exact ha
      obtain ⟨t, ht, hend⟩ := step_ends_of_portBlocked hin hb ho
      exact ⟨1, t, by simp, ht, hend⟩
    | true =>
      obtain ⟨u, hu, hport, hinbox⟩ := acceptCommand_answers c (s.setPort rest)
      have hstep : step s = .next u := by
        rw [step_of_inbox_nil hin]
        simpa [autonomous, hp, ha] using hu
      have hou : outstanding u = true :=
        (outstanding_congr (leavesArbiter_acceptCommand hu).arbState).trans ho
      obtain ⟨n, t, hn, ht, hend⟩ := ih (hinbox.trans hin) hport hou
      exact ⟨n + 1, t, by simpa using hn, (stepsFrom_succ hstep).trans ht, hend⟩

end

/-- Settles O6: undecodable bytes, an acceptable command, the arbiter's step, and `transmission_ends`. -/
theorem stepWithoutDecodedOperation : Obligations.StepWithoutDecodedOperation := by
  refine ⟨fun s r rest hin hd => ?_, fun s c rest hin hp ha => step_accepts hin hp ha, fun s hin hb => ?_,
    fun s hin ho => transmission_ends hin rfl ho⟩
  · simp [step, hin, hd]
  · rw [step_of_portBlocked hin hb]
    refine ⟨fun ha => ?_, fun ha => ?_, arbiterStep_of_outstanding⟩
    · rw [arbiterStep, ha]; rfl
    · rw [arbiterStep, ha]; rfl

end Sys2Proof.Proofs.Arbiter
end

section
/-! PROOFS. The family 44_arbiter.md, part three: what reaches the line during a transmission (R194). `Sending` says that the
batch is in progress and the line carries the first symbols of its waveform. A symbol row carries one more of them, a DRIVE call
adds to the symbols that wait, every other operation leaves both (`KeepsSending`); the end of the transmission settles the
line. -/

namespace Sys2Proof.Proofs.Arbiter

open Sys2Proof Sys2Proof.Machine Sys2Proof.Safety
open Sys2Proof.Proofs.BlockState Sys2Proof.Proofs.PulseEncoder

/-! ### The batch and the line of a transmission -/

/-- The batch `ps` is being sent, and since `before` the line has carried the first symbols of its waveform. -/
structure Sending (before : List Segment) (ps : List Packet) (s : State) : Prop where
  outstanding : outstanding s = true
  batch : BatchIs s ps
  midBatch : s.encDone = false → MidBatch s ps
  line : LineCarries before ps s

/-- The batch, the number of symbols emitted and the line are the same in both states. -/
structure KeepsSending (s t : State) : Prop where
  batchN : t.batchN = s.batchN := by rfl
  readBatch : ∀ i, readBatch t i = readBatch s i := by exact fun _ => rfl
  emitted : emitted t = emitted s := by rfl
  line : t.line = s.line := by rfl
  txPending : t.txPending = s.txPending := by rfl

section
variable {s t : State} {before : List Segment} {ps : List Packet}

theorem KeepsSending.batchIs (k : KeepsSending s t) (h : BatchIs s ps) : BatchIs t ps :=
  ⟨h.1.trans k.batchN.symm, fun i hi => (k.readBatch i).trans (h.2 i hi)⟩

theorem KeepsSending.lineCarries (k : KeepsSending s t) (h : LineCarries before ps s) : LineCarries before ps t := by
  obtain ⟨n, hn, hline, hpend⟩ := h
  exact ⟨n, by rwa [k.emitted], k.line.trans hline, by rw [k.emitted, k.txPending, hpend]⟩

theorem emitted_of_done (h : s.encDone = true) : emitted s = 18 * s.batchN := if_pos h

theorem emitted_of_notDone (h : s.encDone = false) : emitted s = cursorPos s := if_neg (by simp [h])

theorem cursorPos_of_atStart (h : AtStart s) : cursorPos s = 0 := by
  rw [cursorPos_start h.1, h.2.1]

/-- With the invariant, a transmission that is not complete has its cursor in the batch (41_pulse_encoder.md R114). -/
theorem sending_of_blockInv (hinv : BlockInv s) (ho : outstanding s = true) (hb : BatchIs s ps)
    (hl : LineCarries before ps s) : Sending before ps s where
  outstanding := ho
  batch := hb
  midBatch hd := .of_index hb hinv.cursor_legal hd (hb.1 ▸ hinv.index_in_batch ho hd)
  line := hl

/-! ### Where a transmission begins -/

/-- Nothing emitted and nothing waiting: the line stands before the first symbol (44_arbiter.md R194). -/
theorem lineCarries_atStart (hs : AtStart s) (hd : s.encDone = false) (hp : s.txPending = []) (ps : List Packet) :
    LineCarries s.line ps s := by
  have hzero : emitted s = 0 := (emitted_of_notDone hd).trans (cursorPos_of_atStart hs)
  exact ⟨0, Nat.zero_le _, by simp [waveform], by simp [hzero, hp]⟩

/-- The state in which a transmission of the batch `ps` has begun from `s`. -/
structure Begun (s t : State) (ps : List Packet) : Prop where
  nonempty : ps ≠ []
  batch : BatchIs t ps
  atStart : AtStart t := by exact ⟨rfl, rfl, rfl⟩
  notDone : t.encDone = false := by rfl
  line : t.line = s.line := by rfl
  txPending : t.txPending = s.txPending := by rfl

theorem Begun.lineCarries (h : Begun s t ps) (hp : s.txPending = []) : LineCarries s.line ps t :=
  h.line ▸ lineCarries_atStart h.atStart h.notDone (h.txPending.trans hp) ps

theorem begun_heldBegin (k : Key) (c : Channel) (s : State) : Begun s (heldBegin k c s) [encodePacket k c] where
  nonempty := List.cons_ne_nil _ _
  batch := by
    refine ⟨rfl, fun i hi => ?_⟩
    obtain rfl : i = 0 := Nat.lt_one_iff.mp hi
    exact readBatch_buf_zero rfl Nat.one_pos

theorem begun_stopBegin (c : Channel) (s : State) :
    Begun s (stopBegin c s) [encodePacket 0 c, encodePacket 0 c] where
  nonempty := List.cons_ne_nil _ _
  batch := by
    refine ⟨rfl, fun i hi => ?_⟩
    match i, hi with
    | 0, _ => exact readBatch_buf_zero rfl Nat.two_pos
    | 1, _ => exact readBatch_buf_one rfl Nat.one_lt_two

/-- Entries that can be read form a queue. -/
theorem exists_queueIs (h : ∀ i, i < s.qCount → ∃ p, readEntry s.qMem i = .ok p) : ∃ es, QueueIs s es := by
  choose entry hentry using h
  refine ⟨List.ofFn fun i : Fin s.qCount => entry i i.isLt, List.length_ofFn, fun i hi => ?_⟩
  rw [List.getElem_ofFn]
  exact hentry i _

theorem begun_flushBegun {m : Memory} (hinv : BlockInv s) (hq : s.qCount ≠ 0)
    (hm : rebuildEntries s.channel s.qCount 0 s.qMem = .ok m) : ∃ ps, Begun s (flushBegun m s) ps := by
  obtain ⟨es, hqueue⟩ := exists_queueIs hinv.entries_written
  have hnew : QueueIs (flushBegun m s) (es.map fun p => encodePacket (keyField p) s.channel) :=
    queueIs_rebuilt hqueue hm rfl rfl
  have hlen : (es.map fun p => encodePacket (keyField p) s.channel).length = s.qCount := hnew.1
  exact ⟨_, { nonempty := fun hnil => hq (by rw [← hlen, hnil, List.length_nil]),
              batch := batchIs_of_queueIs hnew rfl rfl }⟩

theorem begun_waitStep (hinv : BlockInv s) (ho : outstanding t = true) (h : waitStep s = .next t) :
    ∃ ps, Begun s t ps := by
  obtain ⟨ha, ⟨-, hf⟩ | ⟨-, -, rfl⟩ | ⟨-, -, rfl⟩⟩ := waitStep_cases h
  · rcases flushBegin_cases hf with ⟨-, rfl⟩ | ⟨hq, m, hm, rfl⟩
    · simp [outstanding] at ho
    · have hclear : BlockInv s.clearWakes := blockInv_of_sameBlock hinv {} hinv.pending_empty
      obtain ⟨ps, b⟩ := begun_flushBegun hclear hq hm
      exact ⟨ps, { b with }⟩
  · simp [outstanding] at ho
  · simp [outstanding, ha] at ho

theorem begun_cycleStep (ho : outstanding t = true) (h : cycleStep s = .next t) : ∃ ps, Begun s t ps := by
  obtain ⟨-, ⟨-, rfl⟩ | ⟨-, -, rfl⟩ | ⟨-, -, rfl⟩⟩ := cycleStep_cases h
  · exact ⟨_, begun_heldBegin _ _ s⟩
  · simp [outstanding] at ho
  · exact ⟨_, begun_stopBegin _ s⟩

/-- The moves that make a transmission outstanding are the arbiter's begins: every other move keeps `arb_state`, or ends a
transmission. -/
theorem moved_begins (hinv : BlockInv s) (hos : outstanding s = false) (hot : outstanding t = true) (hm : Moved s t) :
    ∃ ps, Begun s t ps := by
  rcases begins_of_moved hos hot hm with h | h
  · exact begun_cycleStep hot h
  · exact begun_waitStep hinv hot h

/-! ### The operations during a transmission -/

/-- A symbol row carries the symbol that waited first (41_pulse_encoder.md R123). -/
theorem lineCarries_playSymbol {y : Symbol} (h : playSymbol y s = .next t) (hl : LineCarries before ps s) :
    LineCarries before ps t := by
  obtain ⟨rest, hpend, rfl⟩ := playSymbol_cases h
  obtain ⟨k, hk, hline, hwait⟩ := hl
  have hdrop : ((frameSeq ps).take (emitted s)).drop k = y :: rest := hwait.symm.trans hpend
  have hlt : k < ((frameSeq ps).take (emitted s)).length :=
    Nat.lt_of_not_le fun hle => by simp [List.drop_of_length_le hle] at hdrop
  obtain ⟨hy, hrest⟩ := List.cons_eq_cons.mp ((List.drop_eq_getElem_cons hlt).symm.trans hdrop)
  rw [List.length_take] at hlt
  have hnext : (frameSeq ps).take (k + 1) = (frameSeq ps).take k ++ [y] := by
    rw [← hy, List.getElem_take, List.take_concat_get']
  refine ⟨k + 1, show k + 1 ≤ emitted s by omega, ?_, hrest.symm⟩
  rw [State.playOne_line, hline, hnext, waveform_append, List.append_assoc]

/-- A DRIVE call emits `cap` more symbols, or those that are left (41_pulse_encoder.md R117). -/
theorem emitted_of_drove {cap : Nat} (h : MidBatch s ps) (ht : Drove s ps cap t) :
    emitted t = min (cursorPos s + cap) (18 * ps.length) := by
  by_cases hlt : cursorPos s + cap < 18 * ps.length
  · obtain ⟨hmid, hpos, -⟩ := ht.emitted.running hlt
    rw [emitted_of_notDone hmid.notDone, hpos, Nat.min_eq_left hlt.le]
  · obtain ⟨-, hdone, -⟩ := ht.emitted.complete (by omega)
    have hn : t.batchN = s.batchN := by rw [ht.frame]
    rw [emitted_of_done hdone, hn, ← h.batch.1, Nat.min_eq_right (by omega)]

/-- The symbols emitted after a DRIVE call are those before it and the ones it returned. -/
theorem take_emitted_of_drove {cap : Nat} (h : MidBatch s ps) (ht : Drove s ps cap t) :
    (frameSeq ps).take (emitted t) = (frameSeq ps).take (emitted s) ++ upcoming s ps cap := by
  rw [emitted_of_drove h ht, emitted_of_notDone h.notDone, upcoming, ← List.take_add, ← frameSeq_length,
    List.take_eq_take_iff, Nat.min_assoc, Nat.min_self]

/-- A DRIVE call adds what it returned behind the symbols that wait. -/
theorem lineCarries_drove {cap : Nat} (h : MidBatch s ps) (ht : Drove s ps cap t) (hl : LineCarries before ps s) :
    LineCarries before ps t := by
  obtain ⟨k, hk, hline, hwait⟩ := hl
  have hpos := h.pos_lt
  have hcursor := emitted_of_notDone h.notDone
  have hkept : k ≤ ((frameSeq ps).take (emitted s)).length := by rw [List.length_take, frameSeq_length]; omega
  refine ⟨k, ?_, (congrArg State.line ht.frame).trans hline, ?_⟩
  · rw [emitted_of_drove h ht]
    omega
  · rw [ht.txPending, hwait, take_emitted_of_drove h ht, List.drop_append_of_le_length hkept]

theorem batchIs_driveCall {cap : Nat} (h : driveCall cap s = .next t) (hb : BatchIs s ps) : BatchIs t ps := by
  obtain ⟨-, -, -, out, last, u, hl, rfl⟩ := driveCall_cases h
  obtain ⟨_, _, _, _, _, rfl⟩ := driveLoop_wrote hl
  exact hb

theorem sending_driveCall {cap : Nat} (h : driveCall cap s = .next t) (hs : Sending before ps s) :
    Sending before ps t := by
  obtain ⟨-, hd, -⟩ := driveCall_cases h
  have hmid := hs.midBatch hd
  obtain ⟨u, hu, hdrove⟩ := driveCall_drove cap hs.outstanding hmid
  obtain rfl : t = u := by simpa [h] using hu
  refine ⟨hdrove.outstanding hs.outstanding, batchIs_driveCall h hs.batch, fun hnot => ?_,
    lineCarries_drove hmid hdrove hs.line⟩
  have hrunning : cursorPos s + cap < 18 * ps.length := by
    by_contra hle
    obtain ⟨-, hdone, -⟩ := hdrove.emitted.complete (by omega)
    simp [hdone] at hnot
  exact (hdrove.emitted.running hrunning).1

/-- A command accepted during a transmission touches neither the batch nor the line: APPEND is accepted only while the batch
comes from `tx_buf` (43_commands.md R160). -/
theorem keepsSending_acceptCommand {c : Command} (hinv : BlockInv s) (ho : outstanding s = true)
    (ha : acceptable c s = true) (h : acceptCommand c s = .next t) : KeepsSending s t := by
  rcases acceptCommand_cases h with ⟨payload, rfl, h⟩ | ⟨-, rfl⟩ | ⟨b, -, rfl⟩ | ⟨b, -, rfl⟩
  · obtain ⟨m, -, rfl⟩ := appendCommand_cases h
    have hbuf := batchSrc_buf_of_unlocked hinv (acceptable_append ha) ho
    exact { readBatch := readBatch_setQueue_buf m s.qCount hbuf }
  · rcases flushCommand_cases s with ⟨-, hf⟩ | ⟨-, hf⟩
    · rw [hf]; exact {}
    · rw [hf]; exact {}
  · exact {}
  · exact {}

theorem keepsSending_issueCommand {c : Command} (hinv : BlockInv s) (ho : outstanding s = true)
    (h : issueCommand c s = .next t) : KeepsSending s t := by
  rcases issueCommand_cases h with ⟨-, ha, h⟩ | ⟨-, rfl⟩
  · exact keepsSending_acceptCommand hinv ho ha h
  · exact {}

/-- Every move during a transmission that does not end it: the batch stays and the line carries its first symbols
(44_arbiter.md R194). -/
theorem moved_during_sending (hinv : BlockInv s) (hot : outstanding t = true) (hs : Sending before ps s) (hm : Moved s t) :
    BatchIs t ps ∧ LineCarries before ps t := by
  have hkeeps : KeepsSending s t → BatchIs t ps ∧ LineCarries before ps t := fun k =>
    ⟨k.batchIs hs.batch, k.lineCarries hs.line⟩
  have ho := hs.outstanding
  cases hm with
  | returned v ht => subst ht; exact hkeeps {}
  | delivered frames events ht => subst ht; exact hkeeps {}
  | raised d ht => subst ht; exact hkeeps {}
  | encoderReset hb _ => simp [outstanding_of_begins hb] at ho
  | played y h =>
    have hline := lineCarries_playSymbol h hs.line
    obtain ⟨rest, -, rfl⟩ := playSymbol_cases h
    exact ⟨hs.batch, hline⟩
  | drove cap h => exact ⟨batchIs_driveCall h hs.batch, (sending_driveCall h hs).line⟩
  | issued c h => exact hkeeps (keepsSending_issueCommand hinv ho h)
  | heldEnded r h => obtain ⟨-, -, rfl⟩ := heldEnd_cases h; simp [outstanding] at hot
  | stopEnded r h => obtain ⟨-, -, rfl⟩ := stopEnd_cases h; simp [outstanding] at hot
  | flushEnded r h => obtain ⟨-, -, rfl⟩ := flushEnd_cases h; simp [outstanding] at hot
  | cycled h => simp [outstanding, (cycleStep_cases h).1] at ho
  | waited h => simp [outstanding, (waitStep_cases h).1] at ho

/-! ### The end of a transmission -/

/-- From `s` to `t` the transmission has ended with the result `r`: the line is settled, and the arbiter is back in CYCLE. -/
structure EndedWith (r : Token) (s t : State) : Prop where
  line : t.line = (if r = .done then s.line ++ waveform s.txPending else s.line)
  txPending : t.txPending = []
  arbState : t.arbState = .cycle

/-- A result that is allowed ends the transmission, whichever it is. -/
theorem endTransmission_ends {r : Token} (ho : outstanding s = true) (hr : r = .done → s.encDone = true) :
    ∃ u, exec (resultInstr r) s = .next u ∧ EndedWith r s u := by
  have hsettle := settleLine_eq_ite s r
  have hline := congrArg State.line hsettle
  have hpend := congrArg State.txPending hsettle
  rw [exec_resultInstr]
  rcases (outstanding_iff s).mp ho with ha | ha | ha
  · exact ⟨_, (endTransmission_of_txHeld r ha).trans (heldEnd_allowed ha hr), hline, hpend, rfl⟩
  · exact ⟨_, (endTransmission_of_txStop r ha).trans (stopEnd_allowed ha hr), hline, hpend, rfl⟩
  · exact ⟨_, (endTransmission_of_txFlush r ha).trans (flushEnd_allowed ha hr), hline, hpend, rfl⟩

/-- `done` comes after the last symbol was emitted, and carries those that wait: the whole batch has reached the line. -/
theorem EndedWith.line_of_done (h : EndedWith .done s t) (hd : s.encDone = true) (hb : BatchIs s ps)
    (hl : LineCarries before ps s) : t.line = before ++ waveform (frameSeq ps) := by
  obtain ⟨k, -, hline, hpend⟩ := hl
  have hall : (frameSeq ps).take (emitted s) = frameSeq ps :=
    List.take_of_length_le (by rw [frameSeq_length, emitted_of_done hd, hb.1])
  rw [hall] at hpend
  rw [h.line, if_pos rfl, hline, hpend, List.append_assoc, ← waveform_append, List.take_append_drop]

theorem EndedWith.line_of_ne_done {r : Token} (h : EndedWith r s t) (hne : r ≠ .done) (hl : LineCarries before ps s) :
    ∃ k, k ≤ emitted s ∧ t.line = before ++ waveform ((frameSeq ps).take k) := by
  obtain ⟨k, hk, hline, -⟩ := hl
  exact ⟨k, hk, by rw [h.line, if_neg hne, hline]⟩

/-! ### The DRIVE calls of a whole transmission -/

/-- A property that every answered DRIVE call keeps is kept by a run of calls. -/
theorem driveCalls_keeps {P : State → Prop} (hP : ∀ cap u v, P u → driveCall cap u = .next v → P v) {caps : List Nat}
    (h : driveCalls caps s = .next t) (hs : P s) : P t := by
  induction caps generalizing s with
  | nil =>
    injection h with h
    exact h ▸ hs
  | cons cap rest ih =>
    rw [driveCalls, exec_drive] at h
    split at h
    · next u hu => exact ih h (hP cap s u hs hu)
    · cases h
    · cases h

end

/-- Settles O60: where a transmission begins nothing has been emitted (`Begun`), each move keeps `LineCarries`
(`moved_during_sending`), the end settles the line (`EndedWith`), and the calls of the resumability theorem reach the state
in which `done` is allowed. -/
theorem doneTransmissionReachesTheLine : Obligations.DoneTransmissionReachesTheLine := by
  refine ⟨fun i s t hinv hos hot h => ?begin, fun i s t before ps hinv ho hot hb hl h => ?during,
    fun s before ps r ho hb hl hr => ?ended, fun s ps caps last ho hd hstart hpend hb hne hlt hle => ?whole⟩
  case begin =>
    obtain ⟨ps, b⟩ := moved_begins hinv hos hot (exec_moved h)
    exact ⟨ps, b.nonempty, b.batch, b.atStart, b.notDone, b.lineCarries (hinv.pending_empty hos)⟩
  case during => exact moved_during_sending hinv hot (sending_of_blockInv hinv ho hb hl) (exec_moved h)
  case ended =>
    obtain ⟨u, hu, e⟩ := endTransmission_ends ho hr
    refine ⟨u, hu, e.txPending, e.arbState, fun hdone => ?_, fun hother => e.line_of_ne_done hother hl⟩
    subst hdone
    exact e.line_of_done (hr rfl) hb hl
  case whole =>
    obtain ⟨t, -, hcalls, -, -, -, -, -, -, hdone⟩ := driveResumability s ps caps last ho hd hstart hb hne hlt hle
    have hs : Sending s.line ps s :=
      ⟨ho, hb, fun _ => .of_atStart hb hstart hd hne, lineCarries_atStart hstart hd hpend ps⟩
    have ht : Sending s.line ps t := driveCalls_keeps (fun _ _ _ hu hcall => sending_driveCall hcall hu) hcalls hs
    obtain ⟨u, hu, e⟩ := endTransmission_ends (r := .done) ht.outstanding fun _ => hdone
    exact ⟨t, u, hcalls, hu, e.line_of_done hdone ht.batch ht.line, e.txPending, e.arbState⟩

end Sys2Proof.Proofs.Arbiter
end

section
/-! PROOFS. The family 60_exceptions.md: the block never stops (R220), and its events (R222). A fault can come only from a memory
or batch access, and there are three: the reads of DRIVE's loop and of the BATCHSRC rows, which stay inside the presented batch
(`driveLoop_answers`), the rewrite of a flush, which stays inside the valid entries (`noFault_flushBegin`), and the writes of
APPEND, which end below entry 128 (`acceptCommand_answers`). Every other operation is answered or refused. The DIAG and the WAKE
rows close the family. -/

namespace Sys2Proof.Proofs.Exceptions

open Sys2Proof Sys2Proof.Machine Sys2Proof.Safety
open Sys2Proof.Proofs.BlockState Sys2Proof.Proofs.QueueMemory Sys2Proof.Proofs.PulseEncoder Sys2Proof.Proofs.Arbiter

/-! ### Results that are no fault -/

/-- The operation is answered or refused. -/
def NoFault (r : StepResult) : Prop := ∀ f, r ≠ .fault f

theorem noFault_next (t : State) : NoFault (.next t) := fun _ h => by cases h

theorem noFault_refused (r : Refusal) : NoFault (.refused r) := fun _ h => by cases h

theorem noFault_of_answers {r : StepResult} (h : ∃ t, r = .next t) : NoFault r := by
  obtain ⟨t, rfl⟩ := h
  exact noFault_next t

theorem noFault_ite {p : Prop} [Decidable p] {a b : StepResult} (ha : p → NoFault a) (hb : ¬ p → NoFault b) :
    NoFault (if p then a else b) := by
  by_cases hp : p
  · rw [if_pos hp]; exact ha hp
  · rw [if_neg hp]; exact hb hp

/-- An operation with one guard, refused where the guard fails. -/
theorem noFault_guarded {p : Prop} [Decidable p] {a : StepResult} {r : Refusal} (ha : p → NoFault a) :
    NoFault (if p then a else .refused r) :=
  noFault_ite ha fun _ => noFault_refused r

section
variable {s : State}

/-! ### Operations that reach no memory -/

theorem noFault_playSymbol (y : Symbol) : NoFault (playSymbol y s) := by
  unfold playSymbol
  split
  · exact noFault_refused _
  · exact noFault_guarded fun _ => noFault_next _

theorem noFault_heldEnd (r : Token) : NoFault (heldEnd r s) :=
  noFault_guarded fun _ => noFault_guarded fun _ => noFault_next _

theorem noFault_stopEnd (r : Token) : NoFault (stopEnd r s) :=
  noFault_guarded fun _ => noFault_guarded fun _ => noFault_next _

theorem noFault_flushEnd (r : Token) : NoFault (flushEnd r s) :=
  noFault_guarded fun _ => noFault_guarded fun _ => noFault_next _

theorem noFault_endTransmission (r : Token) : NoFault (endTransmission r s) := by
  unfold endTransmission
  split
  · exact noFault_refused _
  · exact noFault_heldEnd r
  · exact noFault_stopEnd r
  · exact noFault_refused _
  · exact noFault_flushEnd r

theorem noFault_cycleStep : NoFault (cycleStep s) :=
  noFault_guarded fun _ => noFault_ite (fun _ => noFault_next _) fun _ =>
    noFault_ite (fun _ => noFault_next _) fun _ => noFault_next _

theorem noFault_requestReset : NoFault (requestReset s) := noFault_guarded fun _ => noFault_next _

/-! ### The command port -/

theorem noFault_acceptCommand (c : Command) (s : State) : NoFault (acceptCommand c s) := by
  obtain ⟨t, ht, -⟩ := acceptCommand_answers c s
  exact noFault_of_answers ⟨t, ht⟩

theorem noFault_issueCommand (c : Command) : NoFault (issueCommand c s) :=
  noFault_ite (fun _ => noFault_acceptCommand c s) fun _ => noFault_next _

theorem noFault_acceptWaiting : NoFault (acceptWaiting s) := by
  unfold acceptWaiting
  split
  · exact noFault_next _
  · exact noFault_ite (fun _ => noFault_acceptCommand _ _) fun _ => noFault_next _

/-! ### Reads of the presented batch -/

/-- While a transmission is outstanding and not complete, DRIVE's loop is answered: the cursor stays inside the batch, whose
packets can all be read (41_pulse_encoder.md R114, 10_state.md R22). -/
theorem driveLoop_answers (cap : Nat) (h : BlockInv s) (ho : outstanding s = true) (hd : s.encDone = false) :
    ∃ r, driveLoop cap s = .ok r := by
  induction cap generalizing s with
  | zero => exact ⟨_, rfl⟩
  | succ cap ih =>
    obtain ⟨p, hp⟩ := h.batch_readable s.encIndex (h.index_in_batch ho hd)
    obtain ⟨⟨y, last, u⟩, hb⟩ := beat_ok hp
    cases last with
    | true => exact ⟨_, driveLoop_of_last hb⟩
    | false =>
      have hou : outstanding u = true := by
        obtain ⟨_, _, _, _, _, rfl⟩ := beat_wrote hb
        exact ho
      obtain ⟨⟨out, last, t⟩, hl⟩ := ih (beat_keeps_blockInv h hd hb) hou (beat_done hb hd)
      exact ⟨_, driveLoop_of_more hb hl⟩

theorem noFault_driveCall (cap : Nat) (h : BlockInv s) : NoFault (driveCall cap s) := by
  refine noFault_guarded fun ho => noFault_ite (fun _ => noFault_refused _) fun hd =>
    noFault_ite (fun _ => noFault_refused _) fun _ => ?_
  obtain ⟨⟨out, last, t⟩, hl⟩ := driveLoop_answers cap h ho (by simpa using hd)
  rw [hl]
  exact noFault_next _

theorem noFault_driveBeat (ph : EncPhase) (h : BlockInv s) : NoFault (driveBeat ph s) :=
  noFault_ite (fun _ => noFault_refused _) fun _ => noFault_driveCall 1 h

theorem noFault_readPresented (src : BatchSrc) (h : BlockInv s) : NoFault (readPresented src s) := by
  refine noFault_guarded fun ⟨_, _, _, hlt⟩ => ?_
  obtain ⟨p, hp⟩ := h.batch_readable s.encIndex hlt
  rw [hp]
  exact noFault_next _

/-! ### The begin of a flush -/

/-- The rewrite reads and writes the valid entries only, and every valid entry has been written (44_arbiter.md R190,
10_state.md R11). -/
theorem noFault_flushBegin (h : ∀ i, i < s.qCount → ∃ p, readEntry s.qMem i = .ok p) : NoFault (flushBegin s) := by
  refine noFault_ite (fun _ => noFault_next _) fun _ => ?_
  obtain ⟨m, hm⟩ := rebuildEntries_ok s.channel s.qCount 0 s.qMem fun j _ hj => h j (by omega)
  rw [hm]
  exact noFault_next _

theorem noFault_waitStep (h : BlockInv s) : NoFault (waitStep s) :=
  noFault_guarded fun _ => noFault_ite (fun _ => noFault_flushBegin (s := s.clearWakes) h.entries_written) fun _ =>
    noFault_ite (fun _ => noFault_next _) fun _ => noFault_next _

theorem noFault_flushStart (h : BlockInv s) : NoFault (flushStart s) :=
  noFault_guarded fun _ => noFault_flushBegin (s := s.clearWakes) h.entries_written

/-! ### Every step -/

theorem noFault_arbiterStep (h : BlockInv s) : NoFault (arbiterStep s) := by
  unfold arbiterStep
  split
  · exact noFault_cycleStep
  · exact noFault_endTransmission _
  · exact noFault_endTransmission _
  · exact noFault_waitStep h
  · exact noFault_endTransmission _

theorem noFault_autonomous (h : BlockInv s) : NoFault (autonomous s) := by
  unfold autonomous
  split
  · exact noFault_arbiterStep h
  · exact noFault_ite (fun _ => noFault_acceptCommand _ _) fun _ => noFault_arbiterStep h

/-- No operation faults in a state that meets the invariant (60_exceptions.md R220). -/
theorem noFault_exec (i : Instr) (h : BlockInv s) : NoFault (exec i s) := by
  cases i with
  | pktStop c x | pktLb c x | pktLf c x | pktLbLf c x | pktRf c x | pktLbRf c x | pktLfRf c x | pktLbLfRf c x
  | pktRb c x | pktLbRb c x | pktLfRb c x | pktLbLfRb c x | pktRfRb c x | pktLbRfRb c x | pktLfRfRb c x
  | pktLbLfRfRb c x => exact noFault_next _
  | symStart | symBit0 | symBit1 | symEnd => exact noFault_playSymbol _
  | append payload => exact noFault_issueCommand _
  | flush payload => exact noFault_issueCommand _
  | heldKey payload =>
    match payload with
    | [b] => exact noFault_issueCommand _
    | [] => exact noFault_refused _
    | _ :: _ :: _ => exact noFault_refused _
  | setChan payload =>
    match payload with
    | [b] => exact noFault_issueCommand _
    | [] => exact noFault_refused _
    | _ :: _ :: _ => exact noFault_refused _
  | outDone | outInvalidArg | outTimeout | outFail | outUnknownError => exact noFault_endTransmission _
  | diagFlushEmpty | diagAppendOverflow n | diagInvalidFrame v => exact noFault_next _
  | wakeContinue => exact noFault_guarded fun _ => noFault_next _
  | wakeFlush => exact noFault_flushStart h
  | arbStateCycle | arbCycle => exact noFault_cycleStep
  | arbStateWait | arbWait => exact noFault_waitStep h
  | arbStateTxHeld r => exact noFault_heldEnd r
  | arbStateTxStop r => exact noFault_stopEnd r
  | arbStateTxFlush r => exact noFault_flushEnd r
  | encPhaseStart | encPhaseWord | encPhaseEnd => exact noFault_driveBeat _ h
  | batchSrcBuf | batchSrcQueue => exact noFault_readPresented _ h
  | checksum v | singleKey k | encode k c | validate p | wireBit p n | waveform l | isStart y | classify y
  | decode capture => exact noFault_next _
  | frameSeq batch => exact noFault_ite (fun _ => noFault_refused _) fun _ => noFault_next _
  | encReset => exact noFault_requestReset
  | drive cap => exact noFault_driveCall cap h
  | arbHeld part =>
    cases part with
    | start => exact noFault_guarded fun _ => noFault_next _
    | complete r => exact noFault_heldEnd r
  | arbStop part =>
    cases part with
    | start => exact noFault_guarded fun _ => noFault_next _
    | complete r => exact noFault_stopEnd r
  | arbFlush part =>
    cases part with
    | start => exact noFault_flushStart h
    | complete r => exact noFault_flushEnd r
  | transmit part =>
    cases part with
    | start => exact noFault_ite (fun _ => noFault_refused _) fun _ => noFault_requestReset
    | drive cap => exact noFault_driveCall cap h
    | finish r => exact noFault_endTransmission r

end

/-- Settles O12: the step is the block's own move, an acceptance, a refusal, or the operation a request decodes to; taking the
event from the inbox keeps the invariant. -/
theorem noFaultUnderInvariant : Obligations.NoFaultUnderInvariant := by
  intro s f h
  suffices hstep : NoFault (step s) from hstep f
  have hinbox : ∀ l, BlockInv (s.setInbox l) := fun l => blockInv_of_sameBlock h {} h.pending_empty
  unfold step
  split
  · exact noFault_autonomous h
  · exact noFault_acceptWaiting
  · split
    · exact noFault_refused _
    · exact noFault_exec _ (hinbox _)

/-! ### The DIAG and the WAKE rows -/

section
variable {s : State}

/-- WAKE.flush is ARB_WAIT where the flush cause is pending (44_arbiter.md R188). -/
theorem flushStart_of_flush (ha : s.arbState = .wait) (hf : s.wakeFlush = true) : flushStart s = waitStep s :=
  (if_pos ⟨ha, hf⟩).trans (waitStep_of_flush ha hf).symm

/-- WAKE.continue is ARB_WAIT where continue alone is pending (44_arbiter.md R188). -/
theorem continueStart_of_continue (ha : s.arbState = .wait) (hf : s.wakeFlush = false) (hc : s.wakeContinue = true) :
    continueStart s = waitStep s :=
  (if_pos ⟨ha, hf, hc⟩).trans (waitStep_of_continue ha hf hc).symm

theorem continueStart_refused (h : s.arbState ≠ .wait ∨ s.wakeFlush = true ∨ s.wakeContinue = false) :
    continueStart s = .refused .stepNotEnabled := by
  refine if_neg fun ⟨ha, hf, hc⟩ => ?_
  rcases h with h | h | h
  · exact h ha
  · simp [hf] at h
  · simp [hc] at h

end

/-- Settles O41: a DIAG row raises its event; a WAKE row is ARB_WAIT where its cause acts, with the effect `waitStepResult`
states, and is refused elsewhere. -/
theorem eventAndWakeRows : Obligations.EventAndWakeRows := by
  refine fun s => ⟨rfl, fun _ => rfl, fun _ => rfl, fun ha hf hc => ?_, flushStart_of_flush, fun ha hf hq => ?_,
    continueStart_refused, flushStart_refused⟩
  · obtain ⟨-, -, hcontinue, -⟩ := waitStepResult s ha
    exact (continueStart_of_continue ha hf hc).trans (hcontinue hf hc)
  · obtain ⟨-, -, -, hempty⟩ := waitStepResult s ha
    exact (flushStart_of_flush ha hf).trans (hempty hf hq)

end Sys2Proof.Proofs.Exceptions
end

section
/-! PROOFS. The family 70_reset_and_hazards.md: the first behaviour after reset (R253). Both steps are instances of a general
fact about a block with no event and no acceptable command: with no key and no stop owed the arbiter goes to WAIT (R182), and
with no wake bit set it stays there (R181). -/

namespace Sys2Proof.Proofs.Reset

open Sys2Proof Sys2Proof.Machine Sys2Proof.Safety
open Sys2Proof.Proofs.Arbiter

/-! ### The block's own move with no transmission -/

section
variable {s : State}

theorem step_eq_cycleStep (hin : s.inbox = []) (hb : PortBlocked s) (ha : s.arbState = .cycle) : step s = cycleStep s := by
  rw [step_of_portBlocked hin hb, arbiterStep, ha]

theorem step_eq_waitStep (hin : s.inbox = []) (hb : PortBlocked s) (ha : s.arbState = .wait) : step s = waitStep s := by
  rw [step_of_portBlocked hin hb, arbiterStep, ha]

theorem portBlocked_of_empty (hp : s.port = []) : PortBlocked s := fun _ _ h => by simp [hp] at h

/-- With no key held and no stop owed the block goes to WAIT, and only `arb_state` changes (44_arbiter.md R182). -/
theorem step_goes_to_wait (hin : s.inbox = []) (hb : PortBlocked s) (ha : s.arbState = .cycle) (hk : s.heldKey = 0)
    (hs : s.stopSent = true) : step s = .next (s.setArb .wait) :=
  (step_eq_cycleStep hin hb ha).trans (cycleStep_of_stop_sent ha hk hs)

/-- In WAIT with no wake bit set the block does not move (44_arbiter.md R181; log 14). -/
theorem step_stays_in_wait (hin : s.inbox = []) (hb : PortBlocked s) (ha : s.arbState = .wait) (hf : s.wakeFlush = false)
    (hc : s.wakeContinue = false) : step s = .next s :=
  (step_eq_waitStep hin hb ha).trans (waitStep_blocked ha hf hc)

end

/-- Settles O8: reset holds no key, owes no stop and has no wake bit set, and its inbox and port are empty. -/
theorem firstStepsAfterReset : Obligations.FirstStepsAfterReset := by
  have hreset : PortBlocked State.reset := portBlocked_of_empty rfl
  have hwaiting : PortBlocked (State.reset.setArb .wait) := portBlocked_of_empty rfl
  exact ⟨step_goes_to_wait rfl hreset rfl rfl rfl, step_stays_in_wait rfl hwaiting rfl rfl rfl⟩

end Sys2Proof.Proofs.Reset
end
